-- ==== Sys2Proof/Word.lean ====
section
/-! DEFINITION. The widths the manual uses for bits: bytes, two-byte values, station and channel numbers, priorities. -/

namespace Sys2Proof

/-- A byte of a frame, of the store or of the register window. -/
abbrev Byte := BitVec 8

/-- A two-byte value: a digest, a check value, a heard mask (11_formats_and_layouts.md). -/
abbrev Half := BitVec 16

/-- A station number, 0–15 (00_scope.md, Table 0-3). -/
abbrev Station := BitVec 4

/-- A channel number, 0–3 (00_scope.md, Table 0-3). -/
abbrev Chan := BitVec 2

/-- A priority, 0–7, of an ask, a request, a channel or a held draw. -/
abbrev Priority := BitVec 3

end Sys2Proof
end

