-- ==== Sys2Proof/Syntax.lean ====
section
/-! DEFINITION. The commands: one constructor per row of spec/opcode_table.json, with the operands the event brings. -/

namespace Sys2Proof

/-- In which order the membership controller and the demand queue take one round close, and whether the expiries
that this close brings about may be taken by rows of their own right behind it (R75, R89, R108; log 3). -/
inductive CloseOrder where
  /-- The head's age advances first, then the station state changes; every expiry is taken in this step. -/
  | ageFirst
  /-- The station state changes first, then the head's age advances; every expiry is taken in this step. -/
  | stateFirst
  /-- The order of `ageFirst`, with each expiry left to its own row where that row stands among the expiry rows right
  behind the close in the queue, and taken in this step where it does not. The entry to ISOLATED may be left to a row
  behind the close's completion as well (R75). -/
  | apart
  deriving DecidableEq, Repr

/-- Whether a conversion that brings a count to K takes the trip itself, or leaves it to a TRIP_REQUEST of the channel
that stands right behind it in the queue; where none stands there it takes the trip itself (R134; log 5). -/
inductive TripTaking where
  | atOnce
  | apart
  deriving DecidableEq, Repr

/-- The 47 rows of spec/opcode_table.json. -/
inductive Instr where
  /-- POWER_ON (R149). -/
  | powerOn
  /-- RESET_PIN_ASSERTED (R149). -/
  | resetPinAsserted
  /-- SUPPLY_RESET (R148). -/
  | supplyReset
  /-- RESET_END (R139) with the level of the four strap pins, strap 0 in bit 0. -/
  | resetEnd (straps : Station)
  /-- START_UP_END (R144). -/
  | startUpEnd
  /-- RECEIVER_READY (R2). -/
  | receiverReady
  /-- RECEPTION_END (R4). -/
  | receptionEnd
  /-- ROUND_CLOSE (R7). -/
  | roundClose (order : CloseOrder)
  /-- LEASE_EXPIRY (R32) of one row. -/
  | leaseExpiry (row : Station)
  /-- RETIRE_EXPIRY (R33) of one row. -/
  | retireExpiry (row : Station)
  /-- LISTEN_COUNT_EXPIRY (R83). -/
  | listenCountExpiry
  /-- JOIN_COUNT_EXPIRY (R86). -/
  | joinCountExpiry
  /-- ISOLATION_COUNT_EXPIRY (R89). -/
  | isolationCountExpiry
  /-- ASK_LIMIT_EXPIRY (R108). -/
  | askLimitExpiry
  /-- SHARE_COMPUTATION_COMPLETION (R46). -/
  | shareComputationCompletion
  /-- DEFERRAL_EXPIRY (R11). -/
  | deferralExpiry
  /-- COLLISION (R14). -/
  | collision
  /-- TRANSMIT_COMPLETE (R16). -/
  | transmitComplete
  /-- LINE_WATCH_EXPIRY (R9). -/
  | lineWatchExpiry
  /-- PERIOD_START (R117). -/
  | periodStart
  /-- ON_COUNT_END (R118) of one channel. -/
  | onCountEnd (channel : Chan)
  /-- CONVERSION_PASS (R131). -/
  | conversionPass
  /-- CONVERSION_COMPLETE (R132) of the channel being converted, with the converter's result. -/
  | conversionComplete (raw : BitVec 10) (trip : TripTaking)
  /-- TRIP_REQUEST (R134) for one channel. -/
  | tripRequest (channel : Chan)
  /-- SUBMIT (R102): code 1 written to CMD. -/
  | submit
  /-- WITHDRAW (R109): code 2 written to CMD. -/
  | withdraw
  /-- CLEAR (R126): code 3 written to CMD. -/
  | clear
  /-- FORGET (R36): code 4 written to CMD. -/
  | forget
  /-- PARK (R94): code 5 written to CMD. -/
  | park
  /-- REJOIN (R96): code 6 written to CMD. -/
  | rejoin
  /-- STORE_WRITE (R146): code 7 written to CMD. -/
  | storeWrite
  /-- RESTART (R150): code 8 written to CMD. -/
  | restart
  /-- REFUSED_UNKNOWN (R154): a byte that is no command code, written to CMD. -/
  | refusedUnknown (code : Byte)
  /-- WRITE_OPERATION_DONE (R147). -/
  | writeOperationDone
  /-- WRITE_TIMEOUT (R147). -/
  | writeTimeout
  /-- SUPPLY_LOW (R148): the supply crosses 3.0 V, downward when the operand is true. -/
  | supplyLow (below : Bool)
  /-- STORE_KEY (R145): a byte written to STORE_KEY. -/
  | storeKey (value : Byte)
  /-- RAW_EVENTS (R158): a byte written to one of the two RAW_EVENTS addresses. -/
  | rawEvents (value : Byte)
  /-- EN (R159): a byte written to one of the two EN addresses. -/
  | en (value : Byte)
  /-- REGISTER_WRITE (R152): a byte written to any other address. -/
  | registerWrite (value : Byte)
  /-- READ_LATCH (R153): a read byte is captured. -/
  | readLatch
  /-- TRANSACTION_START (R151). -/
  | transactionStart
  /-- ADDRESS_BYTE (R151). -/
  | addressByte (value : Byte)
  /-- TRANSACTION_END (R151). -/
  | transactionEnd
  /-- START_BIT_CONFIRMED (R1): true when the middle sample is dominant, false for a false start. -/
  | startBitConfirmed (dominant : Bool)
  /-- CHARACTER_SLOT_END (R1, R3): the data byte sampled, whether the stop bit sampled recessive, and whether the line
  stayed dominant from the stop bit's sample to the end of the slot. -/
  | characterSlotEnd (value : Byte) (stopRecessive : Bool) (staysDominant : Bool)
  /-- SYNCHRONISING_TRANSITION (R2). -/
  | synchronisingTransition
  deriving DecidableEq, Repr

end Sys2Proof
end

