-- ==== Sys2Proof/Decode.lean ====
section
/-! DEFINITION. Reading a command from table bits: no row of spec/opcode_table.json gives bits. -/

namespace Sys2Proof

/-- The command a word spells by the table's bits. No row of the table gives bits, so no word spells one (log 22). -/
def decodeTableWord (_nbits _w : Nat) : Option Instr := none

end Sys2Proof
end

