-- ==== Sys2Proof/Config.lean ====
section
/-! DEFINITION. The free values: what the manual leaves without a value although the step completes (log 14). -/

namespace Sys2Proof

/-- The tag the own grant shows after a completion that concerned no own ask (R58, R63 name none). -/
opaque Config.freeGrantTag : Nat → BitVec 4

/-- The amount the own grant shows after a completion that concerned no own ask; it keeps the 12-bit range of an ask. -/
opaque Config.freeGrantAmount : Nat → BitVec 12

/-- The ask priority bits shown for a row or an own record that carries no ask (R40, R80, Tables 11-7 and 11-9). -/
opaque Config.freeAskPriority : Nat → Priority

/-- The ask tag bits shown for a row or an own record that carries no ask (R40, R80, Tables 11-7 and 11-9). -/
opaque Config.freeAskTag : Nat → BitVec 4

end Sys2Proof
end

