-- ==== Sys2Proof/Machine/State.lean ====
section
/-! DEFINITION. The state of one DM-416 as plain data, block by block, and the state after reset. -/

namespace Sys2Proof.Machine

/-- Four like things, indexed by a channel number (or by the low or high half of a station number). -/
structure Four (α : Type) where
  q0 : α
  q1 : α
  q2 : α
  q3 : α
  deriving DecidableEq, Repr

/-- The same thing four times. -/
def Four.same {α : Type} (a : α) : Four α := ⟨a, a, a, a⟩

/-- Sixteen like things, one per station number: station 4h + l stands at place l of quarter h. -/
abbrev Sixteen (α : Type) := Four (Four α)

/-! ### Frames and asks (Tables 11-1, 11-2) -/

/-- An ask as a CLAIM carries it: amount 1–4095. -/
structure Ask where
  amount : Nat
  priority : Priority
  tag : BitVec 4
  deriving DecidableEq, Repr

/-- The body of a CLAIM frame (R66): held and floor 0–4095. -/
structure ClaimBody where
  held : Nat
  floor : Nat
  priority : Priority
  joining : Bool
  isolated : Bool
  hold : Bool
  shortfall : Bool
  heard : Half
  digest : Half
  code : Half
  ask : Option Ask
  deriving DecidableEq, Repr

/-- A frame of the circuit line with its source and sequence number (R13, R162). -/
inductive Frame where
  | claim (source : Station) (sequence : Byte) (body : ClaimBody)
  | leave (source : Station) (sequence : Byte) (code : Half)
  deriving DecidableEq, Repr

/-! ### Line interface (Table 1-1) -/

/-- The five bit rates of Table 1-2. -/
inductive BitRate where
  | b9600 | b19200 | b38400 | b57600 | b115200
  deriving DecidableEq, Repr

inductive Receiver where
  | inactive | synchronising | ready
  deriving DecidableEq, Repr

/-- The transmitter; while SENDING it holds the frame as it was built (R13). -/
inductive Transmitter where
  | silent
  | idle
  | sending (frame : Frame)
  deriving DecidableEq, Repr

/-- The reasons of the line reason register (R21, R161). -/
inductive LineReason where
  | none | collisions | stuck
  deriving DecidableEq, Repr

/-- The receive assembly buffer of a reception in progress (R3, R4): at most 19 bytes. -/
structure Reception where
  bytes : List Byte
  overlong : Bool
  framingError : Bool
  expected : Option Nat
  deriving DecidableEq, Repr

/-- The line interface. The fields after `sequence` that Table 1-1 does not list are the timers' and receiver's own
positions that R2, R5, R12 and R14 speak of (log 2, log 17). -/
structure LineInterface where
  /-- bit-rate setting (R2) -/
  rate : Option BitRate
  receiver : Receiver
  /-- bit times since the opening transition of the character slot that is open, if one is (R1) -/
  slot : Option Nat
  reception : Option Reception
  /-- the last character opened ended an own transmit complete (R5) -/
  ownEcho : Bool
  transmitter : Transmitter
  /-- bit times of the frame in flight already sent -/
  sentBits : Nat
  /-- attempt count, 0–3 (R14) -/
  attempts : Nat
  /-- sent-this-round mark (R16) -/
  sentThisRound : Bool
  /-- transmit sequence (R13) -/
  sequence : Byte
  /-- idle-gap timer (R7) -/
  idleGap : Nat
  /-- bit times left until the activity end of a transition seen while SYNCHRONISING (R2) -/
  activityLeft : Nat
  /-- recessive bit times of the 3-bit wait of SYNCHRONISING (R2) -/
  syncWait : Nat
  /-- the deferral has expired since the last activity end or round close (R11, R12) -/
  deferralExpired : Bool
  /-- a REJOIN has been taken, and no deferral expiry has come and no attempt begun since (R19, R84, R168) -/
  awaitsExpiry : Bool
  /-- line-watch timer (R9) -/
  lineWatch : Nat
  /-- discard counter, 0–65535 (R4) -/
  discards : Nat
  /-- line reason register (R21) -/
  reason : LineReason
  deriving DecidableEq, Repr

/-! ### Peer table (Table 2-1) -/

inductive RowState where
  | absent | live | silent | retired
  deriving DecidableEq, Repr

/-- One row of the peer table, the fields of Table 2-1; `agedAhead` is the model's own (log 4). -/
structure Row where
  state : RowState
  mismatch : Bool
  lastSequence : Byte
  framesLost : Nat
  missed : Nat
  silentRounds : Nat
  received : Bool
  held : Nat
  floor : Nat
  priority : Priority
  joining : Bool
  isolated : Bool
  hold : Bool
  shortfall : Bool
  heard : Half
  digest : Half
  ask : Option Ask
  /-- the row has already taken its aging for the coming round close (LEASE_EXPIRY, RETIRE_EXPIRY) -/
  agedAhead : Bool
  deriving DecidableEq, Repr

/-- The cleared values of an ABSENT row (section 2.1). -/
def Row.cleared : Row :=
  { state := .absent, mismatch := false, lastSequence := 0, framesLost := 0, missed := 0, silentRounds := 0,
    received := false, held := 0, floor := 0, priority := 0, joining := false, isolated := false, hold := false,
    shortfall := false, heard := 0, digest := 0, ask := none, agedAhead := false }

/-! ### Share engine (Tables 3-1, 4-1) -/

/-- The own last-transmitted record (R64): the content of the CLAIM, its sequence number and the completed mark. -/
structure OwnRecord where
  body : ClaimBody
  sequence : Byte
  completed : Bool
  deriving DecidableEq, Repr

/-- The round snapshot (R43). -/
structure Snapshot where
  rows : Sixteen Row
  own : Option OwnRecord
  ownCompleted : Bool
  deriving DecidableEq, Repr

inductive AskState where
  | none | waiting | tentative
  deriving DecidableEq, Repr

/-- The demand request that owns an ask: which acceptance it was, and its channel (R65; log 16). -/
structure Owner where
  arrival : Nat
  channel : Chan
  deriving DecidableEq, Repr

/-- The ask record (Table 4-1). -/
structure AskRecord where
  state : AskState
  tag : BitVec 4
  amount : Nat
  priority : Priority
  owner : Option Owner
  grantedBefore : Bool
  deriving DecidableEq, Repr

/-- The shortfall record: mark, own shed share S, residual mark (R55). -/
structure Shortfall where
  mark : Bool
  share : Nat
  residual : Bool
  deriving DecidableEq, Repr

/-- The round result (R63) with the result of the last own ask decision (R80). -/
structure RoundResult where
  total : Nat
  floors : Nat
  excess : Nat
  capacity : Nat
  headroom : Nat
  shedTarget : Nat
  granted : Bool
  grantTag : BitVec 4
  grantAmount : Nat
  agreement : Bool
  deriving DecidableEq, Repr

structure ShareEngine where
  snapshot : Snapshot
  own : Option OwnRecord
  ask : AskRecord
  hold : Bool
  shortfall : Shortfall
  carried : Half
  compare : Half
  result : RoundResult
  /-- the computation in flight, with the bit times since it started (R43, R44) -/
  flight : Option Nat
  deriving DecidableEq, Repr

/-! ### Membership controller (Table 5-2) -/

inductive StationState where
  | start | listen | joining | member | isolated | parking | parked | fault
  deriving DecidableEq, Repr

inductive FaultCause where
  | none | storeCrc | storeFormat | valueRange | timingConstraint | floorRange | duplicate
  deriving DecidableEq, Repr

structure Membership where
  state : StationState
  listenCount : Nat
  joinCount : Nat
  isolationCount : Nat
  cause : FaultCause
  deriving DecidableEq, Repr

/-! ### Demand queue (Tables 6-1, 6-3) -/

structure Request where
  channel : Chan
  target : Nat
  priority : Priority
  tag : Byte
  age : Nat
  arrival : Nat
  deriving DecidableEq, Repr

inductive ResultCode where
  | none | done | granted | superseded | withdrawn | expired | tripped | parked
  deriving DecidableEq, Repr

structure LastResult where
  tag : Byte
  code : ResultCode
  deriving DecidableEq, Repr

structure DemandQueue where
  /-- head first (R100) -/
  requests : List Request
  lastResults : Four LastResult
  /-- the arrival of the next accepted request (log 16) -/
  nextArrival : Nat
  deriving DecidableEq, Repr

/-! ### Output controller (Table 7-1) -/

/-- A channel record, with the on count and the level of the load output (R118). -/
structure Channel where
  committed : Nat
  applied : Nat
  priority : Priority
  /-- the gate level, while the channel is gated (R119) -/
  gate : Option Nat
  cut : Bool
  tripped : Bool
  onCount : Nat
  /-- the load output is high -/
  output : Bool
  deriving DecidableEq, Repr

structure OutputController where
  channels : Four Channel
  /-- the output period timer runs (R117) -/
  running : Bool
  deriving DecidableEq, Repr

/-! ### Sense monitor (Table 8-1) -/

/-- The converter (R131). Between a conversion that asks for a trip and the trip itself it holds the channel in `tripping`:
the next conversion has not begun (log 5). -/
inductive Converter where
  | idle
  | converting (channel : Chan)
  | tripping (channel : Chan)
  deriving DecidableEq, Repr

structure SenseChannel where
  reference : Nat
  raw : Nat
  measured : Nat
  overdrawCount : Nat
  overdraw : Bool
  /-- signed byte (R130) -/
  offset : Byte
  deriving DecidableEq, Repr

structure SenseMonitor where
  converter : Converter
  /-- the conversion pass of the present period has begun (R131) -/
  passBegun : Bool
  channels : Four SenseChannel
  deriving DecidableEq, Repr

/-! ### Configuration in force (Table 9-2, R144) -/

structure ChannelEntry where
  rating : Nat
  max : Nat
  scale : Nat
  tolerance : Nat
  deriving DecidableEq, Repr

/-- The CIRCUIT and STATION values in force and the own circuit code. -/
structure Configuration where
  budget : Nat
  reserve : Nat
  lease : Nat
  retire : Nat
  isolation : Nat
  floor : Nat
  period : Nat
  askLimit : Nat
  tripCount : Nat
  entries : Four ChannelEntry
  circuitCode : Half
  deriving DecidableEq, Repr

/-! ### Configuration store and start-up -/

inductive KeyState where
  | locked | half | unlocked
  deriving DecidableEq, Repr

inductive WriteOutcome where
  | none | done | timeout | lowSupply
  deriving DecidableEq, Repr

/-- A write operation in progress (R147). -/
structure WriteOperation where
  address : Byte
  data : Byte
  deriving DecidableEq, Repr

inductive ResetCause where
  | power | pin | supply | restart
  deriving DecidableEq, Repr

structure ConfigStore where
  /-- the 256 bytes, in canonical form -/
  cells : List Host.Cell
  key : KeyState
  write : Option WriteOperation
  lastOutcome : WriteOutcome
  /-- address of the last accepted STORE_WRITE (R166) -/
  writeAddress : Byte
  supplyLow : Bool
  resetCause : ResetCause
  /-- strap value (R139) -/
  strap : Station
  /-- station number in force (R144) -/
  station : Station
  deriving DecidableEq, Repr

/-- The reset causes that last at present (R149). -/
structure CausesLasting where
  power : Bool
  pin : Bool
  supply : Bool
  restart : Bool
  deriving DecidableEq, Repr

/-- In reset, in start-up, or after it (R139, R149). -/
inductive Phase where
  | inReset (causes : CausesLasting)
  | startUp
  | running
  deriving DecidableEq, Repr

/-! ### Local port (Table 10-4) -/

/-- The transaction in progress (R151). -/
inductive Link where
  /-- select is high -/
  | released
  /-- select is low, and the transaction is ignored to its end -/
  | ignored
  /-- select is low, and the address byte is still to come -/
  | awaiting
  | reading (address : BitVec 7)
  | writing (address : BitVec 7)
  deriving DecidableEq, Repr

/-- What CMD_RESULT shows (R154, Table 11-8). -/
inductive CmdResult where
  | none | accepted | refusedRange | refusedTripped | refusedState | refusedLocked | refusedProtected
  | refusedLowSupply | refusedBusy | refusedUnknown
  deriving DecidableEq, Repr

/-- The read latch's address and byte (R153). -/
structure Latched where
  address : BitVec 7
  value : Byte
  deriving DecidableEq, Repr

structure LocalPort where
  link : Link
  latch : Option Latched
  /-- the byte on the data output; none while it is released (R151) -/
  dataOut : Option Byte
  cmd : Byte
  cmdResult : CmdResult
  paramSelect : Byte
  paramTarget : Half
  paramPriority : Byte
  paramTag : Byte
  rowSelect : Station
  channelSelect : Chan
  storeAddr : Byte
  writeData : Byte
  /-- the nine event flags, in the order of section 11.5 -/
  flags : BitVec 9
  enables : BitVec 9
  deriving DecidableEq, Repr

/-! ### The whole -/

/-- The state of one station. -/
structure State where
  phase : Phase
  line : LineInterface
  peers : Sixteen Row
  share : ShareEngine
  member : Membership
  demand : DemandQueue
  outputs : OutputController
  sense : SenseMonitor
  config : Configuration
  store : ConfigStore
  port : LocalPort
  /-- the model's own: how many free values have been used (log 14) -/
  freeIndex : Nat
  /-- the commands that wait, first in first out -/
  pending : List Instr
  deriving DecidableEq, Repr

/-- No step of the block stops with a fault: the station state FAULT is a state like the others (log 21). -/
inductive Fault where
  deriving DecidableEq, Repr

/-- Why a command has no meaning. -/
inductive Refusal where
  /-- raised by an arm of `exec` for a command the model has not reached (safe); no arm raises it -/
  | notModelled (mnemonic : String)
  deriving DecidableEq, Repr

/-! ### After reset -/

/-- Table 1-1. -/
def LineInterface.reset : LineInterface :=
  { rate := none, receiver := .inactive, slot := none, reception := none, ownEcho := false, transmitter := .silent,
    sentBits := 0, attempts := 0, sentThisRound := false, sequence := 255, idleGap := 0, activityLeft := 0,
    syncWait := 0, deferralExpired := false, awaitsExpiry := false, lineWatch := 0, discards := 0,
    reason := .none }

/-- Table 3-1 and Table 4-1. -/
def ShareEngine.reset : ShareEngine :=
  { snapshot := { rows := Four.same (Four.same Row.cleared), own := none, ownCompleted := false }
    own := none
    ask := { state := .none, tag := 0, amount := 0, priority := 0, owner := none, grantedBefore := false }
    hold := false
    shortfall := { mark := false, share := 0, residual := false }
    carried := 0
    compare := 0
    result := { total := 0, floors := 0, excess := 0, capacity := 0, headroom := 0, shedTarget := 0, granted := false,
                grantTag := 0, grantAmount := 0, agreement := false }
    flight := none }

/-- Table 5-2. -/
def Membership.reset : Membership :=
  { state := .start, listenCount := 0, joinCount := 0, isolationCount := 0, cause := .none }

/-- R100. -/
def DemandQueue.reset : DemandQueue :=
  { requests := [], lastResults := Four.same { tag := 0, code := .none }, nextArrival := 0 }

/-- Table 7-1; the output low (R115). -/
def Channel.reset : Channel :=
  { committed := 0, applied := 0, priority := 0, gate := none, cut := false, tripped := false, onCount := 0,
    output := false }

/-- Table 8-1; the offset's value before start-up is the model's choice (log 10). -/
def SenseChannel.reset : SenseChannel :=
  { reference := 0, raw := 0, measured := 0, overdrawCount := 0, overdraw := false, offset := 0 }

/-- No configuration is in force: every value zero (log 9). -/
def Configuration.reset : Configuration :=
  { budget := 0, reserve := 0, lease := 0, retire := 0, isolation := 0, floor := 0, period := 0, askLimit := 0,
    tripCount := 0, entries := Four.same { rating := 0, max := 0, scale := 0, tolerance := 0 }, circuitCode := 0 }

/-- Table 10-4, with select high (log 11). -/
def LocalPort.reset : LocalPort :=
  { link := .released, latch := none, dataOut := none, cmd := 0, cmdResult := .none, paramSelect := 0, paramTarget := 0,
    paramPriority := 0, paramTag := 0, rowSelect := 0, channelSelect := 0, storeAddr := 0, writeData := 0, flags := 0,
    enables := 0 }

/-- A part never programmed, held in a POWER reset: every block at its value after reset (R149; log 6, 7, 8). -/
def State.reset : State :=
  { phase := .inReset { power := true, pin := false, supply := false, restart := false }
    line := LineInterface.reset
    peers := Four.same (Four.same Row.cleared)
    share := ShareEngine.reset
    member := Membership.reset
    demand := DemandQueue.reset
    outputs := { channels := Four.same Channel.reset, running := false }
    sense := { converter := .idle, passBegun := false, channels := Four.same SenseChannel.reset }
    config := Configuration.reset
    store := { cells := [], key := .locked, write := none, lastOutcome := .none, writeAddress := 0, supplyLow := true,
               resetCause := .power, strap := 0, station := 0 }
    port := LocalPort.reset
    freeIndex := 0
    pending := [] }

end Sys2Proof.Machine
end

