-- ==== Sys2Proof/Machine/Ops.lean ====
section
/-! DEFINITION. The shared operations over plain data: the four and sixteen like things, ordered lists, two-byte values,
and the memory of the configuration store. -/

namespace Sys2Proof.Machine

/-! ### Four and sixteen like things -/

/-- The thing at a place. -/
def Four.get {α : Type} (x : Four α) (i : Chan) : α :=
  if i = 0 then x.q0 else if i = 1 then x.q1 else if i = 2 then x.q2 else x.q3

/-- Replace the thing at one place. -/
def Four.set {α : Type} (x : Four α) (i : Chan) (a : α) : Four α :=
  if i = 0 then { x with q0 := a } else if i = 1 then { x with q1 := a }
  else if i = 2 then { x with q2 := a } else { x with q3 := a }

/-- The same function at every place. -/
def Four.map {α β : Type} (f : α → β) (x : Four α) : Four β := ⟨f x.q0, f x.q1, f x.q2, f x.q3⟩

/-- A function of two things at every place. -/
def Four.zipWith {α β γ : Type} (f : α → β → γ) (x : Four α) (y : Four β) : Four γ :=
  ⟨f x.q0 y.q0, f x.q1 y.q1, f x.q2 y.q2, f x.q3 y.q3⟩

/-- The things in the order of their places. -/
def Four.toList {α : Type} (x : Four α) : List α := [x.q0, x.q1, x.q2, x.q3]

/-- The quarter a station number stands in. -/
def quarter (n : Station) : Chan := n.extractLsb' 2 2

/-- The place of a station number in its quarter. -/
def place (n : Station) : Chan := n.extractLsb' 0 2

/-- The thing of a station number. -/
def Sixteen.get {α : Type} (x : Sixteen α) (n : Station) : α := (Four.get x (quarter n)).get (place n)

/-- Replace the thing of one station number. -/
def Sixteen.set {α : Type} (x : Sixteen α) (n : Station) (a : α) : Sixteen α :=
  Four.set x (quarter n) ((Four.get x (quarter n)).set (place n) a)

/-- The same function at every station number. -/
def Sixteen.map {α β : Type} (f : α → β) (x : Sixteen α) : Sixteen β := Four.map (Four.map f) x

/-- The things in ascending order of station number. -/
def Sixteen.toList {α : Type} (x : Sixteen α) : List α :=
  x.q0.toList ++ x.q1.toList ++ x.q2.toList ++ x.q3.toList

/-- The station numbers in ascending order. -/
def stationNumbers : List Station := [0, 1, 2, 3, 4, 5, 6, 7, 8, 9, 10, 11, 12, 13, 14, 15]

/-! ### Ordered lists -/

/-- Insert before the first element that does not come before the new one. -/
def insertOrdered {α : Type} (before : α → α → Bool) (a : α) : List α → List α
  | [] => [a]
  | b :: bs => if before b a then b :: insertOrdered before a bs else a :: b :: bs

/-- Put a list in the order of a strict relation. -/
def putInOrder {α : Type} (before : α → α → Bool) : List α → List α
  | [] => []
  | a :: as => insertOrdered before a (putInOrder before as)

/-! ### Two-byte values -/

/-- The low byte of a two-byte value. -/
def lowByte (h : Half) : Byte := h.extractLsb' 0 8

/-- The high byte of a two-byte value. -/
def highByte (h : Half) : Byte := h.extractLsb' 8 8

/-- A two-byte value from its low and high bytes. -/
def halfOf (low high : Byte) : Half := high ++ low

/-- A two-byte value low byte first, the order of every multi-byte field but the frame check value (chapter 11). -/
def lowFirst (h : Half) : List Byte := [lowByte h, highByte h]

/-- A whole number as a two-byte value. -/
def half (n : Nat) : Half := BitVec.ofNat 16 n

/-- A number below 256 as a byte. -/
def byte (n : Nat) : Byte := BitVec.ofNat 8 n

/-- 1 at a bit position when a mark is set. -/
def bitAt (position : Nat) (mark : Bool) : Nat := if mark then 2 ^ position else 0

/-! ### The memory of the configuration store (R138) -/

/-- What a byte that is not listed reads as: the value of a byte never programmed (note under R138; log 8). -/
def Memory.erased : Byte := 0xFF

/-- The byte at an address. -/
def Memory.read : List Host.Cell → Nat → Byte
  | [], _ => Memory.erased
  | (k, v) :: rest, a => if k = a then v else Memory.read rest a

/-- Set the byte at an address, keeping the canonical form. -/
def Memory.write : List Host.Cell → Nat → Byte → List Host.Cell
  | [], a, v => if v = Memory.erased then [] else [(a, v)]
  | (k, w) :: rest, a, v =>
    if a < k then (if v = Memory.erased then (k, w) :: rest else (a, v) :: (k, w) :: rest)
    else if a = k then (if v = Memory.erased then rest else (a, v) :: rest)
    else (k, w) :: Memory.write rest a v

/-- Addresses rise strictly from a bound up to 255, and no byte listed is what an unlisted one reads as. -/
def Memory.risingFrom : Nat → List Host.Cell → Bool
  | _, [] => true
  | low, (k, v) :: rest => decide (low ≤ k) && decide (k < 256) && decide (v ≠ Memory.erased) && Memory.risingFrom (k + 1) rest

/-- The canonical form of the store's bytes. -/
def Memory.wf (cells : List Host.Cell) : Bool := Memory.risingFrom 0 cells

/-- The bytes of the store from an address on. -/
def Memory.readRun (cells : List Host.Cell) (start : Nat) : Nat → List Byte
  | 0 => []
  | n + 1 => Memory.read cells start :: Memory.readRun cells (start + 1) n

end Sys2Proof.Machine
end

