-- ==== Sys2Proof/Machine/Flags.lean ====
section
/-! DEFINITION. The nine event flags, their enables, and the interrupt output (R158 to R160). -/

namespace Sys2Proof.Machine

/-- The nine events, in the order of their bits (section 11.5, Table 10-3). -/
inductive Event where
  | result | shed | trip | membership | hold | shortfall | peer | line | store
  deriving DecidableEq, Repr

/-- The bit of an event in RAW_EVENTS, EN and EVENTS. -/
def Event.position : Event → Nat
  | .result => 0
  | .shed => 1
  | .trip => 2
  | .membership => 3
  | .hold => 4
  | .shortfall => 5
  | .peer => 6
  | .line => 7
  | .store => 8

/-- The event's bit alone. -/
def Event.mask (e : Event) : BitVec 9 := 1#9 <<< e.position

/-- The flag of an event is set. -/
def flagSet (e : Event) (s : State) : Bool := s.port.flags.getLsbD e.position

/-- An owner sets its flag: a clear flag becomes set and a set one stays set (R158). -/
def raise (e : Event) (s : State) : State :=
  { s with port := { s.port with flags := s.port.flags ||| e.mask } }

/-- Set a flag when a condition holds. -/
def raiseIf (c : Bool) (e : Event) (s : State) : State := if c then raise e s else s

/-- EVENTS: a position is set when both the flag and its enable are (R159). -/
def eventsShown (s : State) : BitVec 9 := s.port.flags &&& s.port.enables

/-- The interrupt output is asserted while EVENTS has any position set, and released during reset (R160). -/
def interruptAsserted (s : State) : Bool := decide (eventsShown s ≠ 0)

/-- A flag word as a two-byte register: STORE is bit 0 of the high byte (section 11.5). -/
def flagWord (f : BitVec 9) : Half := f.setWidth 16

/-- The flags that a byte written to RAW_EVENTS leaves, by which half it was written to (R158, R166). -/
def clearFlags (high : Bool) (value : Byte) (f : BitVec 9) : BitVec 9 :=
  f &&& ~~~(if high then (value.setWidth 9) <<< 8 else value.setWidth 9)

/-- The enables after a byte written to one half of EN: that half takes the bits written (R159, R166). -/
def writeEnables (high : Bool) (value : Byte) (e : BitVec 9) : BitVec 9 :=
  if high then (e &&& 0x0FF#9) ||| ((value.setWidth 9) <<< 8) else (e &&& 0x100#9) ||| value.setWidth 9

end Sys2Proof.Machine
end

