-- ==== Sys2Proof/Machine/Output.lean ====
section
/-! DEFINITION. The output controller's operations on channel records (chapter 7). -/

namespace Sys2Proof.Machine

/-- The committed total C (R115). -/
def committedTotal (chs : Four Channel) : Nat :=
  chs.q0.committed + chs.q1.committed + chs.q2.committed + chs.q3.committed

/-- The applied total A (R115). -/
def appliedTotal (chs : Four Channel) : Nat :=
  chs.q0.applied + chs.q1.applied + chs.q2.applied + chs.q3.applied

/-- Change one channel record. -/
def onChannel (c : Chan) (f : Channel → Channel) (s : State) : State :=
  { s with outputs := { s.outputs with channels := s.outputs.channels.set c (f (s.outputs.channels.get c)) } }

/-- Change every channel record. -/
def onChannels (f : Four Channel → Four Channel) (s : State) : State :=
  { s with outputs := { s.outputs with channels := f s.outputs.channels } }

/-- Set a committed level, releasing a gate that it leaves at or below its gate level (R120, item 2). -/
def Channel.lowerTo (level : Nat) (ch : Channel) : Channel :=
  { ch with committed := level, gate := ch.gate.bind fun g => if level ≤ g then none else some g }

/-- A decrease to a target (R103, R116): the priority is taken only with a target above 0. -/
def Channel.decrease (target : Nat) (priority : Priority) (ch : Channel) : Channel :=
  let lowered := ch.lowerTo target
  if 0 < target then { lowered with priority := priority } else lowered

/-- A local grant (R104, R116): a gate already standing stays as it was. -/
def Channel.grantLocally (target : Nat) (priority : Priority) (ch : Channel) : Channel :=
  { ch with committed := target, priority := priority }

/-- A commit (R107, R119): the channel is gated at the level it held just before. -/
def Channel.commit (target : Nat) (priority : Priority) (ch : Channel) : Channel :=
  { ch with committed := target, priority := priority, gate := some ch.committed }

/-- What a period start would apply (R117). -/
def Channel.levelToApply (ch : Channel) : Nat :=
  if ch.tripped then 0
  else match ch.gate with
    | none => ch.committed
    | some g => min ch.committed g

/-- The on count of an applied level (R118). -/
def onCountOf (applied rating : Nat) : Nat := 256 * applied / rating

/-- A channel at a period start (R117, R118): the new applied level, its on count, and the output high from here on
unless the count is 0. -/
def Channel.startPeriod (entry : ChannelEntry) (ch : Channel) : Channel :=
  { ch with applied := ch.levelToApply, onCount := onCountOf ch.levelToApply entry.rating,
            output := decide (0 < onCountOf ch.levelToApply entry.rating) }

/-- The gate is released and nothing else changes (R120, item 1). -/
def Channel.release (ch : Channel) : Channel := { ch with gate := none }

/-- Entry to FAULT (R127). -/
def Channel.force (ch : Channel) : Channel := { ch with committed := 0, applied := 0, gate := none, output := false }

/-- A trip (R125, items 1 to 4). -/
def Channel.trip (ch : Channel) : Channel :=
  { ch with committed := 0, applied := 0, gate := none, output := false, tripped := true }

/-- An accepted CLEAR (R126). -/
def Channel.clear (ch : Channel) : Channel := { ch with committed := 0, applied := 0, tripped := false }

/-- The channel gives part of its level in a cut (R121). -/
def Channel.give (amount : Nat) (ch : Channel) : Channel :=
  { ch.lowerTo (ch.committed - amount) with cut := true }

/-- Cut order (R121): priority ascending, then channel number descending. -/
def cutOrder (chs : Four Channel) : List Chan :=
  putInOrder (fun a b => decide ((chs.get a).priority < (chs.get b).priority)
    || (decide ((chs.get a).priority = (chs.get b).priority) && decide (b < a))) [0, 1, 2, 3]

/-- The walk of a cut (R121): each channel gives the smaller of its level and what is still to be cut. -/
def cutWalk : List Chan → Nat → Four Channel → Four Channel
  | [], _, chs => chs
  | c :: rest, remaining, chs =>
    let amount := min (chs.get c).committed remaining
    if amount = 0 then cutWalk rest remaining chs
    else cutWalk rest (remaining - amount) (chs.set c ((chs.get c).give amount))

/-- A cut with a target (R121). -/
def cutTo (target : Nat) (chs : Four Channel) : Four Channel :=
  if committedTotal chs ≤ target then chs else cutWalk (cutOrder chs) (committedTotal chs - target) chs

end Sys2Proof.Machine
end

