-- ==== Sys2Proof/Machine/Demand.lean ====
section
/-! DEFINITION. The demand queue's operations (chapter 6). -/

namespace Sys2Proof.Machine

/-! ### Last results (R112, R113) -/

/-- Write a channel's last result and set RESULT. -/
def writeResult (c : Chan) (tag : Byte) (code : ResultCode) (s : State) : State :=
  raise .result
    { s with demand := { s.demand with lastResults := s.demand.lastResults.set c { tag := tag, code := code } } }

/-- Replace the queued requests. -/
def setRequests (rs : List Request) (s : State) : State := { s with demand := { s.demand with requests := rs } }

/-- The request queued for a channel. -/
def requestFor (c : Chan) (rs : List Request) : Option Request := rs.find? fun r => decide (r.channel = c)

/-- The queue without a channel's request; the order of the rest is unchanged (R100). -/
def withoutChannel (c : Chan) (rs : List Request) : List Request := rs.filter fun r => decide (r.channel ≠ c)

/-- Remove the request queued for a channel with a result, if there is one (R103, R109, R110). -/
def endRequestFor (c : Chan) (code : ResultCode) (s : State) : State :=
  match requestFor c s.demand.requests with
  | none => s
  | some r => writeResult c r.tag code (setRequests (withoutChannel c s.demand.requests) s)

/-- Remove every queued request, head first, with result PARKED (R111). -/
def endAllParked (s : State) : State :=
  s.demand.requests.foldl (fun t r => writeResult r.channel r.tag .parked t) (setRequests [] s)

/-- The place of a new request (R105): after every request of equal or higher priority. -/
def insertRequest (r : Request) : List Request → List Request
  | [] => [r]
  | q :: qs => if r.priority ≤ q.priority then q :: insertRequest r qs else r :: q :: qs

/-! ### The announced bound (R86, R104) -/

/-- The bound a CLAIM announces: held when it joins, else the larger of held and floor. -/
def ClaimBody.bound (c : ClaimBody) : Nat := if c.joining then c.held else max c.held c.floor

/-- The bound of the own record: 0 when there is none. -/
def recordBound : Option OwnRecord → Nat
  | none => 0
  | some o => o.body.bound

/-- The announced bound: while an own CLAIM is in flight, no more than what that frame would give (R104). -/
def announcedBound (s : State) : Nat :=
  match s.line.transmitter with
  | .sending (.claim _ _ body) => min (recordBound s.share.own) body.bound
  | _ => recordBound s.share.own

/-- The needed total N for a channel and target (R68, R104): C − C_c + target. -/
def neededTotal (chs : Four Channel) (c : Chan) (target : Nat) : Nat :=
  committedTotal chs - (chs.get c).committed + target

/-- The conditions of a local grant (R104). -/
def fitsLocally (s : State) (c : Chan) (target : Nat) : Bool :=
  decide (s.member.state = .member ∧ s.share.hold = false ∧ s.share.shortfall.mark = false
    ∧ neededTotal s.outputs.channels c target ≤ announcedBound s)

/-- Grant the head, which is off the queue already, with result DONE (R106). -/
def grantHead (r : Request) (s : State) : State :=
  writeResult r.channel r.tag .done (onChannel r.channel (Channel.grantLocally r.target r.priority) s)

/-- The head re-check over at most as many heads as the fuel (R106). -/
def recheckHeads : Nat → State → State
  | 0, s => s
  | fuel + 1, s =>
    match s.demand.requests with
    | [] => s
    | r :: rest =>
      if fitsLocally s r.channel r.target then recheckHeads fuel (grantHead r (setRequests rest s)) else s

/-- The head re-check (R106). -/
def headRecheck (s : State) : State := recheckHeads s.demand.requests.length s

/-! ### Requests of other blocks -/

/-- A shed or isolation cut (R122, R123): when it lowers a level it sets SHED and calls for a head re-check. -/
def shedCut (target : Nat) (s : State) : State :=
  if committedTotal s.outputs.channels ≤ target then s
  else headRecheck (raise .shed (onChannels (cutTo target) s))

/-- A commit notice by its owner (R107): the owner must still be the head. -/
def takeCommitNotice (owner : Owner) (s : State) : State :=
  match s.demand.requests with
  | [] => s
  | r :: rest =>
    if r.arrival = owner.arrival then
      writeResult r.channel r.tag .granted
        (onChannel r.channel (Channel.commit r.target r.priority) (setRequests rest s))
    else s

/-- A trip (R125) with its trip notice (R110). -/
def tripChannel (c : Chan) (s : State) : State :=
  headRecheck (endRequestFor c .tripped (raise .trip (onChannel c Channel.trip s)))

/-- At a round close in MEMBER the head's age increases by one and stops at 255, the most W can be (R108). -/
def ageHead (s : State) : State :=
  if s.member.state = .member then
    match s.demand.requests with
    | [] => s
    | r :: rest =>
      setRequests ({ r with age := min (r.age + 1) 255 } :: rest) s
  else s

/-- The head whose age has reached W is removed with result EXPIRED (R108). -/
def expireHead (s : State) : State :=
  match s.demand.requests with
  | [] => s
  | r :: rest =>
    if 0 < s.config.askLimit ∧ s.config.askLimit ≤ r.age then writeResult r.channel r.tag .expired (setRequests rest s)
    else s

/-! ### SUBMIT and WITHDRAW -/

/-- The checks of SUBMIT in order (R102); none when all pass. -/
def submitRefusal (s : State) : Option CmdResult :=
  let p := s.port
  if 3 < p.paramSelect.toNat ∨ (s.config.entries.get (p.paramSelect.setWidth 2)).max < p.paramTarget.toNat
      ∨ 7 < p.paramPriority.toNat then some .refusedRange
  else if (s.outputs.channels.get (p.paramSelect.setWidth 2)).tripped then some .refusedTripped
  else match s.member.state with
    | .start | .parking | .parked | .fault => some .refusedState
    | .listen | .joining | .member | .isolated => none

/-- Carry an accepted SUBMIT for a channel on (R103 to R105). -/
def carrySubmit (c : Chan) (target : Nat) (priority : Priority) (tag : Byte) (s : State) : State :=
  let s := onChannel c (fun ch => { ch with cut := false }) (endRequestFor c .superseded s)
  let level := (s.outputs.channels.get c).committed
  if target ≤ level then
    let t := writeResult c tag .done (onChannel c (Channel.decrease target priority) s)
    if target < level then headRecheck t else t
  else if fitsLocally s c target then
    writeResult c tag .done (onChannel c (Channel.grantLocally target priority) s)
  else
    let r : Request := { channel := c, target := target, priority := priority, tag := tag, age := 0,
                         arrival := s.demand.nextArrival }
    { s with demand := { s.demand with requests := insertRequest r s.demand.requests,
                                       nextArrival := s.demand.nextArrival + 1 } }

/-- SUBMIT (R102 to R105). -/
def submit (s : State) : CmdResult × State :=
  match submitRefusal s with
  | some code => (code, s)
  | none =>
    (.accepted, carrySubmit (s.port.paramSelect.setWidth 2) s.port.paramTarget.toNat (s.port.paramPriority.setWidth 3)
      s.port.paramTag s)

/-- WITHDRAW (R109). -/
def withdraw (s : State) : CmdResult × State :=
  let c : Chan := s.port.paramSelect.setWidth 2
  if 3 < s.port.paramSelect.toNat then (.refusedRange, s)
  else if requestFor c s.demand.requests = none then (.refusedState, s)
  else (.accepted, endRequestFor c .withdrawn s)

end Sys2Proof.Machine
end

