-- ==== Sys2Proof/Machine/Formats.lean ====
section
/-! DEFINITION. Byte layouts: the CRC-16, frames, digest entries and the store's records (chapter 11, R138 to R143). -/

namespace Sys2Proof.Machine

/-! ### The CRC-16 (R163) -/

/-- One bit of the CRC register: shift left, and subtract x^16 + x^12 + x^5 + 1 when a 1 falls out. -/
def crcShift (c : Half) : Half := if c.msb then (c <<< 1) ^^^ 0x1021#16 else c <<< 1

/-- One byte, most significant bit first. -/
def crcByte (c : Half) (b : Byte) : Half :=
  crcShift (crcShift (crcShift (crcShift (crcShift (crcShift (crcShift (crcShift (c ^^^ (b ++ 0#8)))))))))

/-- The CRC-16 of a run of bytes from the initial value 0xFFFF, with no final inversion. -/
def crc16 (bytes : List Byte) : Half := bytes.foldl crcByte 0xFFFF#16

/-! ### Frames (Tables 11-1 and 11-2, R162) -/

/-- The sync byte. -/
def syncByte : Byte := 0xB6

/-- Byte 3 of a CLAIM. -/
def claimFlags (c : ClaimBody) : Byte :=
  byte (bitAt 7 c.ask.isSome + bitAt 6 c.joining + bitAt 5 c.isolated + bitAt 4 c.hold + bitAt 3 c.shortfall
    + c.priority.toNat)

/-- The ask block of a CLAIM: amount low byte first, then priority in bits 6–4 and tag in bits 3–0. -/
def askBytes : Option Ask → List Byte
  | none => []
  | some a => lowFirst (half a.amount) ++ [byte (a.priority.toNat * 16 + a.tag.toNat)]

/-- The bytes of a frame that its check value covers: byte 1 up to the check value. -/
def Frame.covered : Frame → List Byte
  | .claim source sequence c =>
    [byte (16 + source.toNat), sequence, claimFlags c] ++ lowFirst (half c.held) ++ lowFirst (half c.floor)
      ++ lowFirst c.heard ++ lowFirst c.digest ++ lowFirst c.code ++ askBytes c.ask
  | .leave source sequence code => [byte (32 + source.toNat), sequence] ++ lowFirst code

/-- A frame as sent: sync byte, covered bytes, check value high byte first. -/
def Frame.bytes (f : Frame) : List Byte :=
  syncByte :: f.covered ++ [highByte (crc16 f.covered), lowByte (crc16 f.covered)]

/-- The expected length of a reception once its bytes so far are stored (R3): set by the second byte, and 19 for a CLAIM
once the fourth byte shows the ask-present flag. -/
def expectedLength (bytes : List Byte) : Option Nat :=
  match bytes with
  | _ :: b1 :: rest =>
    let kind := b1.extractLsb' 4 4
    if kind = 2#4 then some 7
    else if kind = 1#4 then
      match rest with
      | _ :: b3 :: _ => if b3.getLsbD 7 then some 19 else some 16
      | _ => some 16
    else none
  | _ => none

/-- The ask carried by the bytes of a CLAIM, when its ask-present flag is set. -/
def readAsk (b : Nat → Byte) : Option Ask :=
  if (b 3).getLsbD 7 then
    some { amount := (halfOf (b 14) (b 15)).toNat, priority := (b 16).extractLsb' 4 3, tag := (b 16).extractLsb' 0 4 }
  else none

/-- The CLAIM body in the bytes of a reception. -/
def readClaim (b : Nat → Byte) : ClaimBody :=
  { held := (halfOf (b 4) (b 5)).toNat, floor := (halfOf (b 6) (b 7)).toNat, priority := (b 3).extractLsb' 0 3,
    joining := (b 3).getLsbD 6, isolated := (b 3).getLsbD 5, hold := (b 3).getLsbD 4, shortfall := (b 3).getLsbD 3,
    heard := halfOf (b 8) (b 9), digest := halfOf (b 10) (b 11), code := halfOf (b 12) (b 13), ask := readAsk b }

/-- The field checks of a CLAIM (R4, condition 6). -/
def claimFieldsValid (b : Nat → Byte) : Bool :=
  (b 5).extractLsb' 4 4 == 0#4 && (b 7).extractLsb' 4 4 == 0#4
    && !((b 3).getLsbD 6 && (b 3).getLsbD 5)
    && (!(b 3).getLsbD 7
      || (halfOf (b 14) (b 15) != 0#16 && (b 15).extractLsb' 4 4 == 0#4 && !(b 16).getLsbD 7))

/-- The check value in the last two bytes, high byte first, against the CRC of byte 1 up to it (R4, condition 7). -/
def checkValueMatches (bytes : List Byte) : Bool :=
  let n := bytes.length
  crc16 ((bytes.drop 1).take (n - 3)) == halfOf (bytes.getD (n - 1) 0) (bytes.getD (n - 2) 0)

/-- The judgement of a reception (R4): the frame of a valid one, none for an invalid one. -/
def judge (r : Reception) : Option Frame :=
  let b := fun i => r.bytes.getD i 0
  let source := (b 1).extractLsb' 0 4
  if b 0 = syncByte ∧ r.framingError = false ∧ r.overlong = false ∧ r.expected = some r.bytes.length
      ∧ checkValueMatches r.bytes = true then
    if (b 1).extractLsb' 4 4 = 1#4 then
      if claimFieldsValid b then some (.claim source (b 2) (readClaim b)) else none
    else if (b 1).extractLsb' 4 4 = 2#4 then some (.leave source (b 2) (halfOf (b 3) (b 4)))
    else none
  else none

/-! ### Digest entries (Table 11-3, R164) -/

/-- One digest entry of eight bytes. -/
def digestEntry (station : Station) (code held floor ask : Nat) : List Byte :=
  [byte station.toNat, byte code] ++ lowFirst (half held) ++ lowFirst (half floor) ++ lowFirst (half ask)

/-! ### The store's records (Tables 9-2, 11-4 to 11-6; R140 to R143) -/

/-- The value bytes of the CIRCUIT and STATION records found in a walk. -/
structure Records where
  circuit : Option (List Byte)
  station : Option (List Byte)
  deriving DecidableEq, Repr

/-- The record walk (R141) over the bytes of the area; none is STORE_FORMAT. The fuel is the area's length, and every
record uses at least two bytes of it. A second record of tag 1 or 2 fails at once, as it would when the list has ended. -/
def walkRecords : Nat → List Byte → Records → Option Records
  | 0, _, found => some found
  | _ + 1, [], found => some found
  | fuel + 1, tag :: rest, found =>
    if tag = 0xFF#8 then some found
    else match rest with
      | [] => none
      | len :: after =>
        if after.length < len.toNat then none
        else
          let value := after.take len.toNat
          let next := after.drop len.toNat
          if tag = 0x01#8 then
            if len = 8#8 ∧ found.circuit = none then walkRecords fuel next { found with circuit := some value } else none
          else if tag = 0x02#8 then
            if len = 34#8 ∧ found.station = none then walkRecords fuel next { found with station := some value } else none
          else walkRecords fuel next found

/-- A two-byte field of a record, low byte first. -/
def field16 (v : List Byte) (offset : Nat) : Nat := (halfOf (v.getD offset 0) (v.getD (offset + 1) 0)).toNat

/-- A one-byte field of a record. -/
def field8 (v : List Byte) (offset : Nat) : Nat := (v.getD offset 0).toNat

/-- Channel n's entry of the STATION record begins at offset 6 + 7n (R165). -/
def readEntry (v : List Byte) (n : Nat) : ChannelEntry :=
  { rating := field16 v (6 + 7 * n), max := field16 v (8 + 7 * n), scale := field16 v (10 + 7 * n),
    tolerance := field8 v (12 + 7 * n) }

/-- The fields of the two records, before any check. The rate code and station override are handed on beside them. -/
def readConfiguration (circuit station : List Byte) : Configuration :=
  { budget := field16 circuit 0, reserve := field16 circuit 2, lease := field8 circuit 5, retire := field8 circuit 6,
    isolation := field8 circuit 7, floor := field16 station 1, period := field8 station 3, askLimit := field8 station 4,
    tripCount := field8 station 5,
    entries := ⟨readEntry station 0, readEntry station 1, readEntry station 2, readEntry station 3⟩,
    circuitCode := crc16 circuit }

/-- The bit rate of a rate code (Table 1-2). -/
def rateOfCode (code : Nat) : Option BitRate :=
  if code = 0 then some .b9600 else if code = 1 then some .b19200 else if code = 2 then some .b38400
  else if code = 3 then some .b57600 else if code = 4 then some .b115200 else none

/-- The ranges of one channel entry (Table 9-2). -/
def entryInRange (e : ChannelEntry) : Bool :=
  decide (1 ≤ e.rating ∧ e.rating ≤ 1023 ∧ e.max ≤ e.rating ∧ 1 ≤ e.scale ∧ e.scale ≤ 4095)

/-- Every field in its range (R142); `rate` and `override` are the two fields handed on beside the configuration. -/
def fieldsInRange (c : Configuration) (rate override : Nat) : Bool :=
  decide (1 ≤ c.budget ∧ c.budget ≤ 4095 ∧ c.reserve + 1 ≤ c.budget ∧ rate ≤ 4)
    && decide (2 ≤ c.lease ∧ c.lease ≤ 8 ∧ 2 ≤ c.retire ∧ c.retire ≤ 32 ∧ 2 ≤ c.isolation ∧ c.isolation ≤ 16)
    && decide (override ≤ 15 ∨ override = 255)
    && decide (c.floor ≤ 4095 ∧ c.period ≤ 4 ∧ (c.askLimit = 0 ∨ 4 ≤ c.askLimit) ∧ 1 ≤ c.tripCount ∧ c.tripCount ≤ 8)
    && c.entries.toList.all entryInRange

/-- The budget less the reserve (R48, R143). -/
def Configuration.capacity (c : Configuration) : Nat := c.budget - c.reserve

/-- What a start-up that passes puts in force (R144). -/
structure Loaded where
  config : Configuration
  rate : Option BitRate
  station : Station
  deriving DecidableEq, Repr

/-- The checks of Table 9-3 in order, over the store's bytes: the cause of the first that fails, or what is loaded. -/
def startUpChecks (cells : List Host.Cell) (strap : Station) : FaultCause × Option Loaded :=
  let header := Memory.readRun cells 0 4
  let length := field16 header 0
  if length = 0 ∨ 220 < length then (.storeCrc, none)
  else
    let area := Memory.readRun cells 4 length
    if crc16 area ≠ half (field16 header 2) then (.storeCrc, none)
    else match walkRecords length area { circuit := none, station := none } with
      | some { circuit := some circuit, station := some station } =>
        let c := readConfiguration circuit station
        let rate := field8 circuit 4
        let override := field8 station 0
        if fieldsInRange c rate override = false then (.valueRange, none)
        else if c.lease + c.retire < c.isolation + 2 then (.timingConstraint, none)
        else if c.capacity < c.floor ∨ (c.entries.toList.map ChannelEntry.max).sum < c.floor then (.floorRange, none)
        else (.none, some { config := c, rate := rateOfCode rate,
                            station := if override = 255 then strap else BitVec.ofNat 4 override })
      | _ => (.storeFormat, none)

end Sys2Proof.Machine
end

