-- ==== Sys2Proof/Machine/Share.lean ====
section
/-! DEFINITION. The share computation, the ask and its commitment (chapters 3 and 4). -/

namespace Sys2Proof.Machine

/-! ### Counted values and totals (R37, R38, R48, R49) -/

/-- The counted value of a row (R37). -/
def Row.counted (r : Row) : Nat :=
  match r.state with
  | .absent => 0
  | .live | .silent => max r.held r.floor
  | .retired => r.floor

/-- What a row adds to the floor total (R49). -/
def Row.floorCounted (r : Row) : Nat := if r.state = .absent then 0 else r.floor

/-- The own record's counted value (R38). -/
def ownCounted : Option OwnRecord → Nat
  | none => 0
  | some o => max o.body.held o.body.floor

/-- What the own record adds to the floor total (R49). -/
def ownFloorCounted : Option OwnRecord → Nat
  | none => 0
  | some o => o.body.floor

/-- The counted total T (R48). -/
def countedTotal (v : Snapshot) : Nat := ((Sixteen.toList v.rows).map Row.counted).sum + ownCounted v.own

/-- The floor total F (R49). -/
def floorTotal (v : Snapshot) : Nat := ((Sixteen.toList v.rows).map Row.floorCounted).sum + ownFloorCounted v.own

/-! ### Hold and shortfall (R50, R52) -/

/-- The computation finds hold (R50). -/
def findsHold (v : Snapshot) (capacity : Nat) : Bool :=
  (Sixteen.toList v.rows).any (fun r => decide (r.state = .live) && r.mismatch) || decide (capacity < floorTotal v)

/-- The shortfall amount D: above 0 exactly when there is shortfall (R52). -/
def shortfallAmount (v : Snapshot) (capacity : Nat) : Nat := countedTotal v - capacity

/-- The headroom: 0 under shortfall (R56). -/
def headroomOf (v : Snapshot) (capacity : Nat) : Nat := capacity - countedTotal v

/-- A row that takes part in the shed list, allocation and view agreement: LIVE, not joining, matched (R53, R56, R71).
The membership controller calls it a qualifying peer (R85). -/
def Row.takesPart (r : Row) : Bool := decide (r.state = .live) && !r.joining && !r.mismatch

/-! ### The shed list (R53, R54) -/

structure ShedEntry where
  station : Station
  priority : Priority
  surplus : Nat
  own : Bool
  deriving DecidableEq, Repr

/-- A row's entry of the shed list (R53). -/
def rowShedEntry (rows : Sixteen Row) (n : Station) : Option ShedEntry :=
  let r := Sixteen.get rows n
  if r.takesPart = true ∧ r.floor < r.held then
    some { station := n, priority := r.priority, surplus := r.held - r.floor, own := false }
  else none

/-- The own record's entry of the shed list (R53). -/
def ownShedEntry (station : Station) (own : Option OwnRecord) : List ShedEntry :=
  match own with
  | none => []
  | some o =>
    if o.body.floor < o.body.held then
      [{ station := station, priority := o.body.priority, surplus := o.body.held - o.body.floor, own := true }]
    else []

/-- Shed order (R54): held priority ascending, then station number descending. -/
def shedBefore (a b : ShedEntry) : Bool :=
  decide (a.priority < b.priority) || (decide (a.priority = b.priority) && decide (b.station < a.station))

/-- The shed list in its order (R53, R54). -/
def shedList (station : Station) (v : Snapshot) : List ShedEntry :=
  putInOrder shedBefore (stationNumbers.filterMap (rowShedEntry v.rows) ++ ownShedEntry station v.own)

/-- The walk of the shed list (R54): what the own record takes, and what remains at the end. -/
def shedWalk : List ShedEntry → Nat → Nat × Nat
  | [], remaining => (0, remaining)
  | e :: rest, remaining =>
    let take := min e.surplus remaining
    let after := shedWalk rest (remaining - take)
    (if e.own then take + after.1 else after.1, after.2)

/-! ### Allocation (R56, R57) -/

structure AskEntry where
  station : Station
  priority : Priority
  amount : Nat
  own : Bool
  deriving DecidableEq, Repr

/-- The ask of a row that is eligible for allocation (R56). -/
def Row.eligibleAsk (r : Row) : Option Ask := if r.takesPart = true ∧ r.hold = false then r.ask else none

/-- A row's entry of the allocation (R56). -/
def rowAskEntry (rows : Sixteen Row) (n : Station) : Option AskEntry :=
  (Sixteen.get rows n).eligibleAsk.map fun a => { station := n, priority := a.priority, amount := a.amount, own := false }

/-- The ask the own record carries. -/
def ownAsk (own : Option OwnRecord) : Option Ask := own.bind fun o => o.body.ask

/-- The own entry of the allocation (R56). -/
def ownAskEntry (station : Station) (own : Option OwnRecord) : List AskEntry :=
  match ownAsk own with
  | none => []
  | some a => [{ station := station, priority := a.priority, amount := a.amount, own := true }]

/-- Allocation order (R57): ask priority descending, then station number ascending. -/
def askBefore (a b : AskEntry) : Bool :=
  decide (b.priority < a.priority) || (decide (a.priority = b.priority) && decide (a.station < b.station))

/-- The eligible asks in their order (R56, R57). -/
def askList (station : Station) (v : Snapshot) : List AskEntry :=
  putInOrder askBefore (stationNumbers.filterMap (rowAskEntry v.rows) ++ ownAskEntry station v.own)

/-- The asks that the walk grants (R57): it stops at the first that does not fit. -/
def grantedAsks : List AskEntry → Nat → List AskEntry
  | [], _ => []
  | e :: rest, headroom => if e.amount ≤ headroom then e :: grantedAsks rest (headroom - e.amount) else []

/-- The own ask is granted (R58): never under shortfall. -/
def ownGranted (station : Station) (v : Snapshot) (capacity : Nat) : Bool :=
  decide (countedTotal v ≤ capacity)
    && (grantedAsks (askList station v) (headroomOf v capacity)).any fun e => e.own

/-! ### The view digest (R60, R61) -/

/-- The state code of a digest entry. -/
def RowState.code : RowState → Nat
  | .absent => 0
  | .live => 1
  | .silent => 2
  | .retired => 3

/-- The amount of an ask, 0 when there is none. -/
def askAmount : Option Ask → Nat
  | none => 0
  | some a => a.amount

/-- A row's digest entry, none for an ABSENT row (R60, R61). -/
def rowDigest (rows : Sixteen Row) (n : Station) : List Byte :=
  let r := Sixteen.get rows n
  if r.state = .absent then [] else digestEntry n r.state.code r.held r.floor (askAmount r.eligibleAsk)

/-- The own digest entry, in the place of the own station number (R60, R61). -/
def ownDigest (station : Station) (own : Option OwnRecord) (n : Station) : List Byte :=
  match own with
  | none => []
  | some o => if n = station then digestEntry n 1 o.body.held o.body.floor (askAmount o.body.ask) else []

/-- The bytes the view digest runs over. -/
def digestInput (station : Station) (v : Snapshot) : List Byte :=
  stationNumbers.flatMap fun n => rowDigest v.rows n ++ ownDigest station v.own n

/-- The view digest of a snapshot (R60). -/
def viewDigest (station : Station) (v : Snapshot) : Half := crc16 (digestInput station v)

/-- View agreement (R71), with the compare digest as it stands after the digest move. -/
def viewAgreement (v : Snapshot) (compare : Half) : Bool :=
  (Sixteen.toList v.rows).all fun r => !r.takesPart || (r.received && decide (r.digest = compare))

/-! ### The own ask decision (R72, R73) -/

/-- Empty the ask record (R69, R73, R75): no owner, nothing granted; the tag keeps its value (log 15). -/
def AskRecord.empty (a : AskRecord) : AskRecord := { a with state := .none, owner := none, grantedBefore := false }

/-- The own grant of this computation matches the record (R72). -/
def grantMatches (granted : Bool) (carried : Option Ask) (a : AskRecord) : Bool :=
  match carried with
  | none => false
  | some c => granted && decide (c.tag = a.tag) && decide (c.amount = a.amount)

/-- The decision: the new record, and whether the ask is committed (R72). -/
def decideAsk (fits ownCompleted agreement : Bool) (a : AskRecord) : AskRecord × Bool :=
  if a.state = .none then (a, false)
  else if fits then
    if a.grantedBefore && ownCompleted && agreement then (a.empty, true)
    else ({ a with state := .tentative, grantedBefore := true }, false)
  else ({ a with state := .waiting, grantedBefore := false }, false)

/-! ### The round close and the completion -/

/-- Take the round view and the own record as the snapshot, and start the computation (R43). -/
def startComputation (view : Sixteen Row) (e : ShareEngine) : ShareEngine :=
  { e with
    snapshot := { rows := view, own := e.own, ownCompleted := match e.own with | none => false | some o => o.completed }
    own := e.own.map fun o => { o with completed := false }
    flight := some 0 }

/-- The shed walk of a snapshot: the own shed share S and what remains; no list is formed without shortfall (R54). -/
def shedOf (station : Station) (v : Snapshot) (capacity : Nat) : Nat × Nat :=
  if capacity < countedTotal v then shedWalk (shedList station v) (shortfallAmount v capacity) else (0, 0)

/-- The shortfall record a computation finds (R52, R54, R55). -/
def findsShortfall (station : Station) (v : Snapshot) (capacity : Nat) : Shortfall :=
  { mark := decide (capacity < countedTotal v), share := (shedOf station v capacity).1,
    residual := decide (0 < (shedOf station v capacity).2) }

/-- The shed target, 0 when none is handed (R59). -/
def shedTargetOf (station : Station) (v : Snapshot) (capacity : Nat) : Nat :=
  match v.own with
  | none => 0
  | some o => if 0 < (shedOf station v capacity).1 then o.body.held - (shedOf station v capacity).1 else 0

/-- The round result of a computation; where the own record carried no ask, the own grant's tag and amount are free
values (R58, R63; log 14). -/
def roundResultOf (station : Station) (v : Snapshot) (capacity : Nat) (agreement : Bool) (free : Nat) : RoundResult :=
  { total := countedTotal v, floors := floorTotal v, excess := shortfallAmount v capacity, capacity := capacity,
    headroom := headroomOf v capacity, shedTarget := shedTargetOf station v capacity,
    granted := ownGranted station v capacity,
    grantTag := match ownAsk v.own with | some a => a.tag | none => Config.freeGrantTag free,
    grantAmount := match ownAsk v.own with | some a => a.amount | none => (Config.freeGrantAmount free).toNat,
    agreement := agreement }

/-- The results that a completion puts in place of the last ones (R46), the ask record after the own ask decision
included, and the computation is no longer in flight. -/
def completeEngine (station : Station) (capacity free : Nat) (e : ShareEngine) : ShareEngine :=
  let v := e.snapshot
  let agreement := viewAgreement v e.carried
  let fits := grantMatches (ownGranted station v capacity) (ownAsk v.own) e.ask
    && !findsHold v capacity && !(findsShortfall station v capacity).mark
  { e with
    hold := findsHold v capacity
    shortfall := findsShortfall station v capacity
    compare := e.carried
    carried := viewDigest station v
    result := roundResultOf station v capacity agreement free
    ask := (decideAsk fits v.ownCompleted agreement e.ask).1
    flight := none }

/-- The owner of the ask that a completion commits (R73). -/
def committedOwner (station : Station) (capacity : Nat) (e : ShareEngine) : Option Owner :=
  let v := e.snapshot
  let fits := grantMatches (ownGranted station v capacity) (ownAsk v.own) e.ask
    && !findsHold v capacity && !(findsShortfall station v capacity).mark
  if (decideAsk fits v.ownCompleted (viewAgreement v e.carried) e.ask).2 then e.ask.owner else none

/-! ### Building a CLAIM (R66 to R69) -/

/-- The held priority: the lowest priority among channels committed above 0, or 0 (R66). -/
def heldPriority (chs : Four Channel) : Priority :=
  match chs.toList.filter fun ch => decide (0 < ch.committed) with
  | [] => 0
  | ch :: rest => rest.foldl (fun p c => if c.priority < p then c.priority else p) ch.priority

/-- The heard mask of the snapshot (R67). -/
def heardMask (station : Station) (v : Snapshot) : Half :=
  stationNumbers.foldl
    (fun m n => if (Sixteen.get v.rows n).received || (decide (n = station) && v.ownCompleted) then m ||| (1#16 <<< n.toNat) else m)
    0#16

/-- A heard mask names a station. -/
def names (mask : Half) (n : Station) : Bool := mask.getLsbD n.toNat

/-- The held value of a CLAIM built now (R66). -/
def heldNow (s : State) : Nat := max (appliedTotal s.outputs.channels) (committedTotal s.outputs.channels)

/-- The request whose need the build carries, with the ask amount, when an ask is carried (R68). -/
def askNow (s : State) : Option (Request × Nat) :=
  match s.demand.requests with
  | [] => none
  | r :: _ =>
    let needed := neededTotal s.outputs.channels r.channel r.target
    let announced := max (heldNow s) s.config.floor
    if s.member.state = .member ∧ s.share.hold = false ∧ announced < needed then some (r, needed - announced) else none

/-- The ask record brought into line with the frame (R69). -/
def askRecordNow (s : State) : AskRecord :=
  match askNow s with
  | none => s.share.ask.empty
  | some (r, amount) =>
    let owner : Owner := { arrival := r.arrival, channel := r.channel }
    if s.share.ask.state ≠ .none ∧ s.share.ask.owner = some owner ∧ s.share.ask.amount = amount then s.share.ask
    else { state := .waiting, tag := s.share.ask.tag + 1, amount := amount, priority := r.priority, owner := some owner,
           grantedBefore := false }

/-- The ask that the frame carries: the record's, when there is one (R69). -/
def askInFrame (s : State) : Option Ask :=
  if (askNow s).isSome then
    some { amount := (askRecordNow s).amount, priority := (askRecordNow s).priority, tag := (askRecordNow s).tag }
  else none

/-- The CLAIM body built at the start of an attempt (R66). -/
def claimNow (s : State) : ClaimBody :=
  { held := heldNow s, floor := s.config.floor, priority := heldPriority s.outputs.channels,
    joining := decide (s.member.state = .joining), isolated := decide (s.member.state = .isolated),
    hold := s.share.hold, shortfall := s.share.shortfall.mark, heard := heardMask s.store.station s.share.snapshot,
    digest := s.share.carried, code := s.config.circuitCode, ask := askInFrame s }

/-- Replace the ask record. -/
def setAsk (a : AskRecord) (s : State) : State := { s with share := { s.share with ask := a } }

end Sys2Proof.Machine
end

