-- ==== Sys2Proof/Machine/Member.lean ====
section
/-! DEFINITION. The membership controller's transitions and checks (chapter 5). -/

namespace Sys2Proof.Machine

/-- Enter a station state, setting MEMBERSHIP (R99). -/
def enter (st : StationState) (s : State) : State :=
  raise .membership { s with member := { s.member with state := st } }

/-- Empty the ask record on leaving MEMBER (R75). -/
def emptyAsk (s : State) : State := setAsk s.share.ask.empty s

/-- Entry to JOINING (R84). -/
def enterJoining (s : State) : State :=
  enter .joining { s with member := { s.member with joinCount := 0 } }

/-- Entry to MEMBER: isolation count 0 and a head re-check (R86, R91, R92). -/
def enterMember (s : State) : State :=
  headRecheck (enter .member { s with member := { s.member with isolationCount := 0 } })

/-- Entry to ISOLATED with its isolation cut (R89, R123). -/
def enterIsolated (s : State) : State := shedCut s.config.floor (emptyAsk (enter .isolated s))

/-- Entry to FAULT by a duplicate notice (R97, R111, R127); a further one changes nothing. -/
def takeDuplicate (s : State) : State :=
  if s.member.state = .fault then s
  else
    let t := enter .fault { s with member := { s.member with cause := .duplicate } }
    let t := { t with line := { t.line with transmitter := .silent } }
    endAllParked (emptyAsk (onChannels (Four.map Channel.force) t))

/-- Every row of a table is ABSENT (R31). -/
def tableEmpty (rows : Sixteen Row) : Bool := (Sixteen.toList rows).all fun r => decide (r.state = .absent)

/-- An empty-table notice (R31, R92): only an ISOLATED station acts on it. -/
def takeEmptyTable (s : State) : State := if s.member.state = .isolated then enterMember s else s

/-- A row that had a frame and names a station: what the join and isolation checks look for (R85, R88). -/
def Row.confirms (n : Station) (r : Row) : Bool := r.takesPart && r.received && names r.heard n

/-- The join count after a round view (R85). -/
def nextJoinCount (n : Station) (view : List Row) (count : Nat) : Nat :=
  if view.all (fun r => !r.takesPart) then count + 1
  else if view.any (fun r => r.takesPart && r.received)
      && view.all (fun r => !(r.takesPart && r.received) || names r.heard n) then count + 1
  else 0

/-- The isolation count after a round view (R88). -/
def nextIsolationCount (n : Station) (view : List Row) (count : Nat) : Nat :=
  if view.any (fun r => decide (r.state = .live) || decide (r.state = .silent)) && !view.any (Row.confirms n)
  then count + 1 else 0

/-- The membership controller's check at a round close: counts move, and an ISOLATED station whose view is empty
returns to MEMBER (R83, R85, R88, R92). -/
def membershipCheck (view : Sixteen Row) (s : State) : State :=
  match s.member.state with
  | .listen => { s with member := { s.member with listenCount := s.member.listenCount + 1 } }
  | .joining =>
    { s with member := { s.member with
      joinCount := nextJoinCount s.store.station (Sixteen.toList view) s.member.joinCount } }
  | .member =>
    { s with member := { s.member with
      isolationCount := nextIsolationCount s.store.station (Sixteen.toList view) s.member.isolationCount } }
  | .isolated => if tableEmpty view then enterMember s else s
  | .start | .parking | .parked | .fault => s

/-- The listen count has reached L + 1: the station enters JOINING (R83, R84). -/
def takeListenExpiry (s : State) : State :=
  if s.member.state = .listen ∧ s.config.lease + 1 ≤ s.member.listenCount then enterJoining s else s

/-- The join count has reached 2: the station enters MEMBER (R86). -/
def takeJoinExpiry (s : State) : State :=
  if s.member.state = .joining ∧ 2 ≤ s.member.joinCount then enterMember s else s

/-- The isolation count has reached I: the station enters ISOLATED (R88, R89). -/
def takeIsolationExpiry (s : State) : State :=
  if s.member.state = .member ∧ s.config.isolation ≤ s.member.isolationCount then enterIsolated s else s

/-- The expiries of the membership controller that the counts have reached. A station state uses one count, so at most
one of them acts on a state it finds; the order here keeps an entry made by one from being acted on by the next. -/
def takeMemberExpiries (s : State) : State := takeListenExpiry (takeJoinExpiry (takeIsolationExpiry s))

/-- A line-watch expiry at the membership controller (R83, R86, R89). -/
def takeLineWatch (s : State) : State :=
  match s.member.state with
  | .listen => { s with member := { s.member with listenCount := 0 } }
  | .joining => { s with member := { s.member with joinCount := 0 } }
  | .member => enterIsolated s
  | .start | .isolated | .parking | .parked | .fault => s

/-- PARK (R94, R111, R124). -/
def park (s : State) : CmdResult × State :=
  match s.member.state with
  | .listen => (.accepted, endAllParked (enter .parked s))
  | .joining | .member | .isolated =>
    (.accepted, onChannels (cutTo 0) (endAllParked (emptyAsk (enter .parking s))))
  | .start | .parking | .parked | .fault => (.refusedState, s)

/-- REJOIN (R96): the store is locked in the same step, and the first attempt waits for a deferral expiry still to come
(R19, R84, R168). -/
def rejoin (s : State) : CmdResult × State :=
  if s.member.state = .parked then
    (.accepted, enterJoining { s with store := { s.store with key := .locked }
                                      line := { s.line with awaitsExpiry := true } })
  else (.refusedState, s)

end Sys2Proof.Machine
end

