-- ==== Sys2Proof/Machine/Peers.lean ====
section
/-! DEFINITION. The peer table: arrivals, aging and FORGET (chapter 2). -/

namespace Sys2Proof.Machine

/-- Replace one row. -/
def setRow (n : Station) (r : Row) (s : State) : State := { s with peers := Sixteen.set s.peers n r }

/-- The frames lost count after a CLAIM arrival (R26): only a row that was LIVE counts a gap. -/
def Row.lostAfter (r : Row) (sequence : Byte) : Nat :=
  if r.state = .live then min (r.framesLost + (sequence - r.lastSequence - 1).toNat) 255 else r.framesLost

/-- A row after a CLAIM arrival (R25 to R27). -/
def Row.afterClaim (ownCode : Half) (sequence : Byte) (c : ClaimBody) (r : Row) : Row :=
  { state := .live, mismatch := decide (c.code ≠ ownCode), lastSequence := sequence, framesLost := r.lostAfter sequence,
    missed := 0, silentRounds := 0, received := true, held := c.held, floor := c.floor, priority := c.priority,
    joining := c.joining, isolated := c.isolated, hold := c.hold, shortfall := c.shortfall, heard := c.heard,
    digest := c.digest, ask := c.ask, agedAhead := false }

/-- A confirming frame (R91), by the notice of R28: joining clear, matched, and naming the own station. -/
def isConfirming (ownCode : Half) (n : Station) (c : ClaimBody) : Bool :=
  !c.joining && decide (c.code = ownCode) && names c.heard n

/-- A CLAIM arrival (R25 to R29) with its arrival notice (R28, R91). -/
def claimArrival (source : Station) (sequence : Byte) (c : ClaimBody) (s : State) : State :=
  let row := Sixteen.get s.peers source
  let t := raiseIf (decide (row.state ≠ .live)) .peer
    (setRow source (row.afterClaim s.config.circuitCode sequence c) s)
  if t.member.state = .isolated ∧ isConfirming s.config.circuitCode s.store.station c = true then enterMember t
  else t

/-- Make a row ABSENT, set PEER, and give the empty-table notice when this empties the table (R30, R31, R36). -/
def removeRow (n : Station) (s : State) : State :=
  let t := raise .peer (setRow n Row.cleared s)
  if tableEmpty s.peers = false ∧ tableEmpty t.peers = true then takeEmptyTable t else t

/-- A row at a round close (R32, R33): a row aged ahead has taken its aging already (log 4). -/
def Row.age (lease retire : Nat) (r : Row) : Row :=
  if r.agedAhead then { r with agedAhead := false }
  else match r.state with
    | .absent | .retired => r
    | .live =>
      if r.received then r
      else if lease ≤ r.missed + 1 then { r with missed := r.missed + 1, state := .silent, silentRounds := 0 }
      else { r with missed := r.missed + 1 }
    | .silent =>
      if retire ≤ r.silentRounds + 1 then { r with silentRounds := r.silentRounds + 1, state := .retired }
      else { r with silentRounds := r.silentRounds + 1 }

/-- Some row changes state when the table ages, so PEER is set (R39). -/
def agingShows (lease retire : Nat) (rows : Sixteen Row) : Bool :=
  (Sixteen.toList rows).any fun r => decide ((r.age lease retire).state ≠ r.state)

/-- The per-round mark cleared (R34). -/
def Row.unmark (r : Row) : Row := { r with received := false }

/-- The round close at the peer table and the share engine: rows age, the view is handed, the computation starts, the
per-round marks are cleared (R32 to R35, R43). -/
def closeTable (s : State) : State :=
  let view := Sixteen.map (Row.age s.config.lease s.config.retire) s.peers
  raiseIf (agingShows s.config.lease s.config.retire s.peers) .peer
    { s with peers := Sixteen.map Row.unmark view, share := startComputation view s.share }

/-- The round view that a close hands to the membership controller (R34). -/
def roundView (s : State) : Sixteen Row := Sixteen.map (Row.age s.config.lease s.config.retire) s.peers

/-- FORGET (R36). -/
def forget (s : State) : CmdResult × State :=
  let n : Station := s.port.paramSelect.setWidth 4
  if 15 < s.port.paramSelect.toNat then (.refusedRange, s)
  else if (Sixteen.get s.peers n).state = .retired then (.accepted, removeRow n s)
  else (.refusedState, s)

end Sys2Proof.Machine
end

