-- ==== Sys2Proof/Machine/Line.lean ====
section
/-! DEFINITION. The line interface: characters, receptions, attempts and the line timers (chapter 1). -/

namespace Sys2Proof.Machine

/-! ### Line timings in bit times (Table 1-3) -/

/-- Idle after a character slot that ends a reception. -/
def receptionEndGap : Nat := 3

/-- The deferral of a station: 12 + 4n (R11). -/
def deferralOf (n : Station) : Nat := 12 + 4 * n.toNat

/-- Idle that closes a round (R7). -/
def roundGap : Nat := 84

/-- Time without a round close that is a line fault (R9). -/
def lineWatchLimit : Nat := 8192

/-- A character slot (R1). -/
def characterBits : Nat := 10

/-- The longest time a share computation takes (R44). -/
def computationLimit : Nat := 48

/-! ### The state of the line -/

/-- The line interface has been activated since the last reset (R2). -/
def LineInterface.active (l : LineInterface) : Bool := decide (l.receiver ≠ .inactive)

/-- The transmitter is SENDING. -/
def LineInterface.sends (l : LineInterface) : Bool :=
  match l.transmitter with
  | .sending _ => true
  | .silent | .idle => false

/-- The line interface is active, no character slot is open and the station is not sending (section 1.1.2). -/
def LineInterface.idle (l : LineInterface) : Bool := l.active && l.slot.isNone && !l.sends

/-- Change the line interface. -/
def onLine (f : LineInterface → LineInterface) (s : State) : State := { s with line := f s.line }

/-- Activation (R2): the rate is taken and both timers start from zero. -/
def LineInterface.activate (rate : Option BitRate) (l : LineInterface) : LineInterface :=
  { l with rate := rate, receiver := .synchronising, transmitter := .idle, idleGap := 0, lineWatch := 0,
           activityLeft := 0, syncWait := 0, deferralExpired := false }

/-- A transition seen while SYNCHRONISING (R2): the 3-bit wait restarts, and an activity end falls 10 bit times later. -/
def LineInterface.transition (l : LineInterface) : LineInterface :=
  if l.receiver = .synchronising then
    { l with syncWait := 0, activityLeft := characterBits, idleGap := 0, deferralExpired := false }
  else l

/-- 3 recessive bit times have passed while SYNCHRONISING (R2). -/
def LineInterface.synchronised (l : LineInterface) : LineInterface :=
  if l.receiver = .synchronising then { l with receiver := .ready, syncWait := receptionEndGap } else l

/-! ### Characters and receptions (R1, R3) -/

/-- A reception with nothing stored yet. -/
def Reception.begin : Reception := { bytes := [], overlong := false, framingError := false, expected := none }

/-- Store a character (R3, R4): the buffer holds 19, and one beyond marks the reception as overlong. -/
def Reception.store (value : Byte) (framingError : Bool) (r : Reception) : Reception :=
  let error := r.framingError || framingError
  if r.bytes.length < 19 then
    { r with bytes := r.bytes ++ [value], framingError := error, expected := expectedLength (r.bytes ++ [value]) }
  else { r with overlong := true, framingError := error }

/-- A confirmed start bit opens a character slot (R1, R3): the line is no longer idle, a held deferral expiry is void
(R12), and a reception begins when none is in progress. -/
def LineInterface.openSlot (l : LineInterface) : LineInterface :=
  { l with slot := some 0, ownEcho := false, idleGap := 0, activityLeft := 0, deferralExpired := false,
           reception := some (l.reception.getD Reception.begin) }

/-- The start bit's middle sample (R1): a false start is not activity. -/
def LineInterface.startBit (dominant : Bool) (l : LineInterface) : LineInterface :=
  if l.receiver = .ready ∧ l.slot = none ∧ dominant = true then l.openSlot else l

/-- The end of a character slot (R1, R3): the character is stored and an activity end falls; a line still dominant since a
dominant stop bit opens the next slot at once. -/
def LineInterface.endSlot (value : Byte) (stopRecessive staysDominant : Bool) (l : LineInterface) : LineInterface :=
  match l.slot with
  | none => l
  | some _ =>
    let closed := { l with slot := none, idleGap := 0, deferralExpired := false,
                           reception := l.reception.map (Reception.store value (!stopRecessive)) }
    if !stopRecessive && staysDominant then closed.openSlot else closed

/-- What a valid frame becomes (R5, R6). -/
def takeFrame (f : Frame) (s : State) : State :=
  match f with
  | .claim source sequence body =>
    if source = s.store.station then takeDuplicate s else claimArrival source sequence body s
  | .leave source _ _ =>
    if source = s.store.station then takeDuplicate s else removeRow source s

/-- The reception in progress is judged once (R3 to R5): an invalid one adds one to the discard counter, the own echo goes
nowhere, and any other becomes a duplicate notice or a frame arrival. -/
def endReception (s : State) : State :=
  match s.line.reception, s.line.slot with
  | some r, none =>
    let t := onLine (fun l => { l with reception := none, ownEcho := false, idleGap := max l.idleGap receptionEndGap }) s
    match judge r with
    | none => onLine (fun l => { l with discards := min (l.discards + 1) 65535 }) t
    | some f => if s.line.ownEcho then t else takeFrame f t
  | _, _ => s

/-! ### Attempts (R10 to R16) -/

/-- The station states that send (Table 1-4). -/
def StationState.sends : StationState → Bool
  | .joining | .member | .isolated | .parking => true
  | .start | .listen | .parked | .fault => false

/-- A frame is due (R10). -/
def frameDue (s : State) : Bool :=
  s.member.state.sends && !s.line.sentThisRound && decide (s.line.attempts < 3)

/-- The sequence number of the attempt that begins now (R13): fixed at the first attempt of the round. -/
def attemptSequence (l : LineInterface) : Byte := if l.attempts = 0 then l.sequence + 1 else l.sequence

/-- The frame that is due is a LEAVE (Table 1-4, R20). -/
def leaveDue (s : State) : Bool :=
  decide (s.member.state = .parking ∧ appliedTotal s.outputs.channels = 0)

/-- The frame built at the start of an attempt (R13, R66, R70). -/
def frameNow (s : State) : Frame :=
  if leaveDue s then .leave s.store.station (attemptSequence s.line) s.config.circuitCode
  else .claim s.store.station (attemptSequence s.line) (claimNow s)

/-- Begin an attempt (R13): the frame is built, a CLAIM brings the ask record into line (R69), and the transmitter sends.
The idle-gap timer and the deferral begin afresh with every attempt, whether or not its start bit reads back dominant:
the line is not idle while the station sends (the model's choice where the start bit reads recessive, log 23). -/
def beginAttempt (s : State) : State :=
  let frame := frameNow s
  let t := if leaveDue s then s else setAsk (askRecordNow s) s
  onLine (fun l => { l with transmitter := .sending frame, sequence := attemptSequence l, sentBits := 0, idleGap := 0,
                            deferralExpired := false, awaitsExpiry := false }) t

/-- Begin an attempt when the deferral has expired, the line is idle, a frame is due, the transmitter is IDLE and no
computation is in flight (R11). -/
def tryAttempt (s : State) : State :=
  if s.line.deferralExpired = true ∧ s.line.idle = true ∧ frameDue s = true
      ∧ s.line.transmitter = .idle ∧ s.share.flight = none then beginAttempt s
  else s

/-- A held deferral expiry takes effect at the completion, where it finds no computation in flight (R12), the first one
after a REJOIN included (R168). In JOINING one held since before the REJOIN begins nothing: the first attempt waits for an
expiry still to come (R10, R19, R84, R168; log 24). -/
def tryHeldAttempt (s : State) : State :=
  if s.member.state = .joining ∧ s.line.awaitsExpiry = true then s else tryAttempt s

/-- The deferral expires on an idle line, once after each activity end or round close (R11, R12). -/
def expireDeferral (s : State) : State :=
  if s.line.idle = true ∧ s.line.deferralExpired = false then
    tryAttempt (onLine (fun l => { l with deferralExpired := true, awaitsExpiry := false, activityLeft := 0,
                                          idleGap := max l.idleGap (deferralOf s.store.station) }) s)
  else s

/-- Set LINE with a reason (R21). -/
def raiseLine (reason : LineReason) (s : State) : State :=
  raise .line (onLine (fun l => { l with reason := reason }) s)

/-- A collision ends the attempt in flight (R14, R15). -/
def collide (s : State) : State :=
  if s.line.sends then
    let t := onLine (fun l => { l with transmitter := .idle, attempts := l.attempts + 1, sentBits := 0 }) s
    if t.line.attempts = 3 then raiseLine .collisions t else t
  else s

/-- Replace the own record. -/
def setOwn (o : Option OwnRecord) (s : State) : State := { s with share := { s.share with own := o } }

/-- The transmitter's part of transmit complete (R16): IDLE, sent this round, an activity end, and the echo to come. -/
def LineInterface.complete (l : LineInterface) : LineInterface :=
  { l with transmitter := .idle, sentThisRound := true, sentBits := 0, idleGap := 0, deferralExpired := false,
           ownEcho := true }

/-- Transmit complete (R16, R64, R95, R106, R120). -/
def completeTransmit (s : State) : State :=
  match s.line.transmitter with
  | .sending (.claim _ sequence body) =>
    headRecheck (onChannels (Four.map Channel.release)
      (setOwn (some { body := body, sequence := sequence, completed := true }) (onLine LineInterface.complete s)))
  | .sending (.leave _ _ _) =>
    let t := setOwn none (onLine LineInterface.complete s)
    if t.member.state = .parking then enter .parked t else t
  | .silent | .idle => s

/-! ### Rounds (R7 to R9) -/

/-- The line interface at a round close (R7, R8). -/
def LineInterface.closeRound (l : LineInterface) : LineInterface :=
  { l with attempts := 0, sentThisRound := false, idleGap := 0, activityLeft := 0, deferralExpired := false,
           lineWatch := 0 }

/-- The rows by which single rows of the table age (R32, R33). -/
def isAgingRow : Instr → Bool
  | .leaseExpiry _ | .retireExpiry _ => true
  | _ => false

/-- On an idle line a ROUND_CLOSE stands right behind the present command in the queue, with none but aging rows between,
so no other command and no bit time can fall before it (log 4). -/
def closeStandsNext (s : State) : Bool :=
  s.line.idle && match s.pending.dropWhile isAgingRow with
    | .roundClose _ :: _ => true
    | _ => false

/-- A LIVE row whose missed count the close that stands next brings to L takes its aging at once (R32; log 4). -/
def takeLeaseExpiry (n : Station) (s : State) : State :=
  let r := Sixteen.get s.peers n
  if closeStandsNext s = true ∧ r.state = .live ∧ r.received = false ∧ r.agedAhead = false
      ∧ s.config.lease ≤ r.missed + 1 then
    raise .peer (setRow n { r.age s.config.lease s.config.retire with agedAhead := true } s)
  else s

/-- A SILENT row whose silent rounds the close that stands next brings to R takes its aging at once (R33; log 4). -/
def takeRetireExpiry (n : Station) (s : State) : State :=
  let r := Sixteen.get s.peers n
  if closeStandsNext s = true ∧ r.state = .silent ∧ r.agedAhead = false ∧ s.config.retire ≤ r.silentRounds + 1 then
    raise .peer (setRow n { r.age s.config.lease s.config.retire with agedAhead := true } s)
  else s

/-- The rows of the expiries that a round close can bring about (R83, R86, R89, R108). -/
def isExpiryRow : Instr → Bool
  | .listenCountExpiry | .joinCountExpiry | .isolationCountExpiry | .askLimitExpiry => true
  | _ => false

/-- An expiry row stands among those right behind the present command in the queue, so no other command and no bit time
can fall before it (log 3). The entry to ISOLATED may stand behind the close's completion as well, since either of the two
may be taken first (R75, R89, R123). -/
def standsNext (row : Instr) (s : State) : Bool :=
  (s.pending.takeWhile isExpiryRow).contains row
    || (decide (row = .isolationCountExpiry)
        && match s.pending.dropWhile isExpiryRow with
          | .shareComputationCompletion :: rest => (rest.takeWhile isExpiryRow).contains row
          | _ => false)

/-- An expiry taken now, unless its own row stands next. -/
def unlessNext (row : Instr) (take : State → State) (s : State) : State := if standsNext row s then s else take s

/-- A count found at its limit is taken before a further close moves it. No step leaves one there but to a row that
stands next (log 3), so this acts only on states that no run reaches. -/
def takeLeftExpiries (s : State) : State := takeMemberExpiries (expireHead s)

/-- The membership controller's expiries, each unless its own row stands next. -/
def takeMemberExpiriesNotNext (s : State) : State :=
  unlessNext .listenCountExpiry takeListenExpiry
    (unlessNext .joinCountExpiry takeJoinExpiry (unlessNext .isolationCountExpiry takeIsolationExpiry s))

/-- The membership controller and the demand queue at a round close, in the order the sender chose (R75, R89, R108). -/
def closeCounts (order : CloseOrder) (view : Sixteen Row) (s : State) : State :=
  match order with
  | .ageFirst => takeMemberExpiries (membershipCheck view (expireHead (ageHead s)))
  | .stateFirst => expireHead (ageHead (takeMemberExpiries (membershipCheck view s)))
  | .apart =>
    takeMemberExpiriesNotNext (membershipCheck view (unlessNext .askLimitExpiry expireHead (ageHead s)))

/-- A round close (R7, R8, R32 to R35, R43, R83, R85, R88, R92, R108), on an idle line. -/
def closeRound (order : CloseOrder) (s : State) : State :=
  if s.line.idle then
    let t := onLine LineInterface.closeRound (takeLeftExpiries s)
    closeCounts order (roundView t) (closeTable t)
  else s

/-- A line-watch expiry (R9). -/
def expireLineWatch (s : State) : State :=
  if s.line.active then takeLineWatch (raiseLine .stuck (onLine (fun l => { l with lineWatch := 0 }) s)) else s

/-- The completion of the share computation in flight (R46): results and digests, the own ask decision with its commit
notice, the shed target, and the end of the transmitter's wait (R12). -/
def completeShare (s : State) : State :=
  match s.share.flight with
  | none => s
  | some _ =>
    let station := s.store.station
    let capacity := s.config.capacity
    let e := completeEngine station capacity s.freeIndex s.share
    let t := { s with share := e, freeIndex := if (ownAsk s.share.snapshot.own).isNone then s.freeIndex + 1 else s.freeIndex }
    let t := raiseIf (decide (e.hold ≠ s.share.hold)) .hold t
    let t := raiseIf (decide (e.shortfall.mark ≠ s.share.shortfall.mark ∨ e.shortfall.residual ≠ s.share.shortfall.residual))
      .shortfall t
    let t := match committedOwner station capacity s.share with
      | none => t
      | some owner => takeCommitNotice owner t
    let t := if 0 < e.shortfall.share then shedCut e.result.shedTarget t else t
    tryHeldAttempt t

/-! ### One bit time with nothing happening (log 2) -/

/-- An event of the line interface is due, so time waits for its command. -/
def lineEventDue (s : State) : Bool :=
  let l := s.line
  (l.reception.isSome && l.slot.isNone && decide (receptionEndGap ≤ l.idleGap))
    || (l.idle && !l.deferralExpired && decide (deferralOf s.store.station ≤ l.idleGap))
    || (l.idle && decide (roundGap ≤ l.idleGap))
    || decide (lineWatchLimit ≤ l.lineWatch)
    || (decide (l.receiver = .synchronising) && decide (receptionEndGap ≤ l.syncWait))
    || (match l.slot with | some t => decide (characterBits ≤ t) | none => false)
    || (match l.transmitter with
        | .sending f => decide (characterBits * f.bytes.length ≤ l.sentBits)
        | .silent | .idle => false)
    || (match s.share.flight with | some t => decide (computationLimit ≤ t) | none => false)

/-- The line timers after one bit time: the idle-gap timer counts only on an idle line whose last activity has ended. After
a transition seen while SYNCHRONISING the 3-bit wait counts only from its activity end, since no line level stands in
State (the model's choice, log 25). -/
def LineInterface.bitTime (l : LineInterface) : LineInterface :=
  { l with
    slot := l.slot.map (· + 1)
    sentBits := if l.sends then l.sentBits + 1 else l.sentBits
    activityLeft := l.activityLeft - 1
    idleGap := if l.idle && decide (l.activityLeft = 0) then l.idleGap + 1 else l.idleGap
    syncWait := if l.receiver = .synchronising ∧ l.activityLeft = 0 then l.syncWait + 1 else l.syncWait
    lineWatch := l.lineWatch + 1 }

/-- One bit time passes, unless the line is not active or an event is due (log 2). -/
def passBitTime (s : State) : State :=
  if s.line.active && !lineEventDue s then
    { s with line := s.line.bitTime, share := { s.share with flight := s.share.flight.map (· + 1) } }
  else s

end Sys2Proof.Machine
end

