-- ==== Sys2Proof/Machine/Sense.lean ====
section
/-! DEFINITION. Periods, conversions and trips: the output period timer and the sense monitor (chapters 7 and 8). -/

namespace Sys2Proof.Machine

/-- The measured value of a raw count (R132): the offset is taken off, the result clamped to 0–1023, scaled and rounded
down. -/
def measuredOf (raw : Nat) (offset : Byte) (scale : Nat) : Nat :=
  let corrected := (max 0 (min 1023 ((raw : Int) - offset.toInt))).toNat
  corrected * scale / 1024

/-- A conversion is an overdraw (R133): at full scale, or over the reference level and tolerance. -/
def isOverdraw (raw measured reference tolerance : Nat) : Bool :=
  decide (raw = 1023) || decide (reference + tolerance < measured)

/-- A channel's sense record after a conversion (R132 to R135): a TRIPPED channel's overdraw count is not moved. -/
def SenseChannel.convert (raw : Nat) (entry : ChannelEntry) (tripped : Bool) (x : SenseChannel) : SenseChannel :=
  let measured := measuredOf raw x.offset entry.scale
  let exceeds := isOverdraw raw measured x.reference entry.tolerance
  { x with raw := raw, measured := measured, overdraw := exceeds,
           overdrawCount := if tripped then x.overdrawCount else if exceeds then x.overdrawCount + 1 else 0 }

/-- Change one channel's sense record. -/
def onSense (c : Chan) (f : SenseChannel → SenseChannel) (s : State) : State :=
  { s with sense := { s.sense with channels := s.sense.channels.set c (f (s.sense.channels.get c)) } }

/-- Set the converter. -/
def setConverter (v : Converter) (s : State) : State := { s with sense := { s.sense with converter := v } }

/-- The converter after a channel's conversion: the next channel, or IDLE after channel 3 (R131). -/
def nextConversion (c : Chan) : Converter := if c = 3 then .idle else .converting (c + 1)

/-- A NORMAL channel's overdraw count has reached K, so a trip request stands for it (R134). -/
def tripStands (c : Chan) (s : State) : Bool :=
  decide (s.outputs.running = true ∧ (s.outputs.channels.get c).tripped = false
    ∧ s.config.tripCount ≤ (s.sense.channels.get c).overdrawCount)

/-- The pass goes on after a trip: the conversion behind the one that asked for it begins only now (R131). -/
def Converter.afterTrip (c : Chan) (v : Converter) : Converter := if v = .tripping c then nextConversion c else v

/-- A trip request that stands is taken: the channel is tripped, and then the pass goes on (R134, R125, R131). -/
def takeTripRequest (c : Chan) (s : State) : State :=
  if tripStands c s then tripChannel c (setConverter (s.sense.converter.afterTrip c) s) else s

/-- Trip requests that still stand are taken before a further conversion's result or period (R131, R134). No step leaves
one standing but to a TRIP_REQUEST that is next in the queue (log 5), so this acts only on states that no run reaches. -/
def takeTripRequests (s : State) : State :=
  takeTripRequest 3 (takeTripRequest 2 (takeTripRequest 1 (takeTripRequest 0 s)))

/-- The conversion of a channel completes (R132 to R135). -/
def completeConversion (c : Chan) (raw : BitVec 10) (s : State) : State :=
  setConverter (nextConversion c)
    (onSense c (SenseChannel.convert raw.toNat (s.config.entries.get c) (s.outputs.channels.get c).tripped) s)

/-- The trip request that a conversion brings (R134): the output controller takes it at once, or it is left to a
TRIP_REQUEST that is the very next command, and the next conversion does not begin before it (R131; log 5). -/
def handTripRequest (c : Chan) (trip : TripTaking) (s : State) : State :=
  if trip = .apart ∧ s.pending.head? = some (.tripRequest c) ∧ tripStands c s = true then setConverter (.tripping c) s
  else takeTripRequest c s

/-- A period start (R117, R118, R131). -/
def startPeriod (s : State) : State :=
  let chs := Four.zipWith Channel.startPeriod s.config.entries s.outputs.channels
  { s with
    outputs := { s.outputs with channels := chs }
    sense := { s.sense with
      passBegun := false
      channels := Four.zipWith (fun ch x => { x with reference := ch.applied }) chs s.sense.channels } }

/-- The on count of a channel has elapsed: its output goes low (R118). Counts 0 and 256 have no such end. -/
def Channel.endOnCount (ch : Channel) : Channel :=
  if 1 ≤ ch.onCount ∧ ch.onCount ≤ 255 then { ch with output := false } else ch

/-- CLEAR (R126, R135). -/
def clearTrip (s : State) : CmdResult × State :=
  let c : Chan := s.port.paramSelect.setWidth 2
  if 3 < s.port.paramSelect.toNat then (.refusedRange, s)
  else if (s.outputs.channels.get c).tripped then
    (.accepted, onSense c (fun x => { x with overdrawCount := 0 }) (onChannel c Channel.clear s))
  else (.refusedState, s)

end Sys2Proof.Machine
end

