-- ==== Sys2Proof/Machine/Store.lean ====
section
/-! DEFINITION. Resets, start-up, the store's key and writes, and the supply monitor (chapter 9). -/

namespace Sys2Proof.Machine

/-! ### Resets (R149) -/

/-- A cause among those that last. -/
def CausesLasting.add (c : ResetCause) (x : CausesLasting) : CausesLasting :=
  match c with
  | .power => { x with power := true }
  | .pin => { x with pin := true }
  | .supply => { x with supply := true }
  | .restart => { x with restart := true }

/-- No cause lasts. -/
def CausesLasting.none : CausesLasting := { power := false, pin := false, supply := false, restart := false }

/-- The part is held in reset. -/
def Phase.held : Phase → Bool
  | .inReset _ => true
  | .startUp | .running => false

/-- The transaction at a reset (R151): it ends at once, and a select that is low is ignored until it has gone high. -/
def Link.reset : Link → Link
  | .released => .released
  | .ignored | .awaiting | .reading _ | .writing _ => .ignored

/-- The supply is below both thresholds while a cause of POWER or SUPPLY begins (R148; log 7). -/
def ResetCause.lowersSupply : ResetCause → Bool
  | .power | .supply => true
  | .pin | .restart => false

/-- Every block at its value after reset; the store's bytes, the supply and the select pin are as they were (R149). -/
def resetBlocks (cause : ResetCause) (s : State) : State :=
  { State.reset with
    phase := .inReset (CausesLasting.none.add cause)
    store := { State.reset.store with cells := s.store.cells, resetCause := cause,
                                      supplyLow := s.store.supplyLow || cause.lowersSupply }
    port := { LocalPort.reset with link := s.port.link.reset }
    freeIndex := s.freeIndex
    pending := s.pending }

/-- A reset cause begins (R149): a second one prolongs the reset in progress and leaves the recorded cause (log 6). -/
def beginReset (cause : ResetCause) (s : State) : State :=
  match s.phase with
  | .inReset causes =>
    { s with phase := .inReset (causes.add cause),
             store := { s.store with supplyLow := s.store.supplyLow || cause.lowersSupply } }
  | .startUp | .running => resetBlocks cause s

/-- The last cause ends: start-up begins with the straps (R139). -/
def endReset (straps : Station) (s : State) : State :=
  match s.phase with
  | .inReset _ => { s with phase := .startUp, store := { s.store with strap := straps, station := straps } }
  | .startUp | .running => s

/-! ### Start-up (R82, R130, R139 to R144) -/

/-- The factory offset of a channel: bytes 0xE0 to 0xE3 (R130). -/
def factoryOffset (cells : List Host.Cell) (c : Nat) : Byte := Memory.read cells (0xE0 + c)

/-- The four factory offsets in the sense monitor (R130). -/
def loadOffsets (cells : List Host.Cell) (x : Four SenseChannel) : Four SenseChannel :=
  ⟨{ x.q0 with offset := factoryOffset cells 0 }, { x.q1 with offset := factoryOffset cells 1 },
   { x.q2 with offset := factoryOffset cells 2 }, { x.q3 with offset := factoryOffset cells 3 }⟩

/-- The configuration is put in force and the station enters LISTEN (R144): the line interface is activated and the
first period starts in the same instant (R2, R117). -/
def putInForce (l : Loaded) (s : State) : State :=
  let t := { s with
    phase := .running
    config := l.config
    store := { s.store with station := l.station }
    line := s.line.activate l.rate
    sense := { s.sense with channels := loadOffsets s.store.cells s.sense.channels }
    outputs := { s.outputs with running := true }
    member := { s.member with listenCount := 0 } }
  startPeriod (enter .listen t)

/-- Start-up fails (R82, R144). -/
def failStartUp (cause : FaultCause) (s : State) : State :=
  enter .fault { s with phase := .running, member := { s.member with cause := cause } }

/-- Start-up ends with one of its two outcomes (R82, R139). -/
def endStartUp (s : State) : State :=
  match s.phase with
  | .startUp =>
    match startUpChecks s.store.cells s.store.strap with
    | (_, some l) => putInForce l s
    | (cause, none) => failStartUp cause s
  | .inReset _ | .running => s

/-! ### Key, writes and supply (R145 to R148) -/

/-- The key table (R145). -/
def KeyState.next (value : Byte) : KeyState → KeyState
  | .locked => if value = 0x4D#8 then .half else .locked
  | .half => if value = 0xB2#8 then .unlocked else .locked
  | .unlocked => if value = 0x4D#8 then .half else .locked

/-- Change the store block. -/
def onStore (f : ConfigStore → ConfigStore) (s : State) : State := { s with store := f s.store }

/-- A write operation ends (R147): IDLE with the outcome, locked, STORE set. -/
def endWrite (outcome : WriteOutcome) (s : State) : State :=
  raise .store (onStore (fun x => { x with write := none, lastOutcome := outcome, key := .locked }) s)

/-- The byte is programmed (R138, R147). -/
def finishWrite (s : State) : State :=
  match s.store.write with
  | none => s
  | some w => endWrite .done (onStore (fun x => { x with cells := Memory.write x.cells w.address.toNat w.data }) s)

/-- 10 ms have run out (R147). -/
def timeOutWrite (s : State) : State :=
  match s.store.write with
  | none => s
  | some _ => endWrite .timeout s

/-- The supply crosses 3.0 V (R148): a fall ends a write in progress with LOWSUPPLY (R147). -/
def crossSupply (below : Bool) (s : State) : State :=
  let t := onStore (fun x => { x with supplyLow := below }) s
  if below && s.store.write.isSome then endWrite .lowSupply t else t

/-- STORE_WRITE (R146). -/
def storeWrite (s : State) : CmdResult × State :=
  if s.store.key ≠ .unlocked then (.refusedLocked, s)
  else if s.member.state ≠ .parked ∧ s.member.state ≠ .fault then (.refusedState, s)
  else if 0xE0 ≤ s.port.storeAddr.toNat then (.refusedProtected, s)
  else if s.store.supplyLow then (.refusedLowSupply, s)
  else if s.store.write.isSome then (.refusedBusy, s)
  else
    (.accepted, onStore (fun x => { x with write := some { address := s.port.storeAddr, data := s.port.writeData },
                                           writeAddress := s.port.storeAddr }) s)

/-- The code RESTART is refused with (R150); none when it is accepted. -/
def restartRefusal (s : State) : Option CmdResult :=
  match s.member.state with
  | .parked | .fault => if s.store.write.isSome then some .refusedBusy else none
  | .start | .listen | .joining | .member | .isolated | .parking => some .refusedState

end Sys2Proof.Machine
end

