-- ==== Sys2Proof/Machine/Window.lean ====
section
/-! DEFINITION. What each address of the register window presents (Tables 11-7 to 11-10, R166, R167). -/

namespace Sys2Proof.Machine

/-! ### Codes (Table 11-8) -/

def StationState.code : StationState → Nat
  | .start => 0 | .listen => 1 | .joining => 2 | .member => 3 | .isolated => 4 | .parking => 5 | .parked => 6 | .fault => 7

def ResetCause.code : ResetCause → Nat
  | .power => 1 | .pin => 2 | .supply => 3 | .restart => 4

def FaultCause.code : FaultCause → Nat
  | .none => 0 | .storeCrc => 1 | .storeFormat => 2 | .valueRange => 3 | .timingConstraint => 4 | .floorRange => 5
  | .duplicate => 6

def LineReason.code : LineReason → Nat
  | .none => 0 | .collisions => 1 | .stuck => 2

def AskState.code : AskState → Nat
  | .none => 0 | .waiting => 1 | .tentative => 2

def ResultCode.code : ResultCode → Nat
  | .none => 0 | .done => 1 | .granted => 2 | .superseded => 3 | .withdrawn => 4 | .expired => 5 | .tripped => 6
  | .parked => 7

def WriteOutcome.code : WriteOutcome → Nat
  | .none => 0 | .done => 1 | .timeout => 2 | .lowSupply => 3

def KeyState.code : KeyState → Nat
  | .locked => 0 | .half => 1 | .unlocked => 2

def CmdResult.code : CmdResult → Nat
  | .none => 0 | .accepted => 1 | .refusedRange => 2 | .refusedTripped => 3 | .refusedState => 4 | .refusedLocked => 5
  | .refusedProtected => 6 | .refusedLowSupply => 7 | .refusedBusy => 8 | .refusedUnknown => 9

/-! ### Fields of the window -/

/-- A field of the window: one byte, or a two-byte value with its low byte at the address (R153, R166). -/
inductive WindowField where
  | one (address : Nat) (value : Nat)
  | two (address : Nat) (value : Half)
  deriving DecidableEq, Repr

/-- The byte a field presents at an address. -/
def WindowField.byteAt (a : Nat) : WindowField → Option Byte
  | .one k v => if a = k then some (byte v) else none
  | .two k v => if a = k then some (lowByte v) else if a = k + 1 then some (highByte v) else none

/-- The high byte, with its address, when the address is the low byte of a two-byte value (R153). -/
def WindowField.latchAt (a : Nat) : WindowField → Option Latched
  | .one _ _ => none
  | .two k v => if a = k then some { address := BitVec.ofNat 7 (k + 1), value := highByte v } else none

/-- 0x00 to 0x05: identity, causes, state and marks. -/
def identityFields (s : State) : List WindowField :=
  [ .one 0x00 (Memory.read s.store.cells 0xE4).toNat,
    .one 0x01 (s.store.strap.toNat + 16 * s.store.station.toNat),
    .one 0x02 s.store.resetCause.code,
    .one 0x03 s.member.cause.code,
    .one 0x04 s.member.state.code,
    .one 0x05 (bitAt 0 s.share.hold + bitAt 1 s.share.shortfall.mark + bitAt 2 s.share.shortfall.residual) ]

/-- 0x06 to 0x11: counts, totals and the line group. -/
def stationFields (s : State) : List WindowField :=
  [ .one 0x06 s.member.listenCount, .one 0x07 s.member.joinCount, .one 0x08 s.member.isolationCount,
    .one 0x09 s.demand.requests.length,
    .two 0x0A (half (committedTotal s.outputs.channels)), .two 0x0C (half (appliedTotal s.outputs.channels)),
    .one 0x0E s.line.reason.code, .one 0x0F s.line.sequence.toNat, .two 0x10 (half s.line.discards) ]

/-- 0x12 to 0x1E: events and commands. -/
def commandFields (s : State) : List WindowField :=
  [ .two 0x12 (flagWord s.port.flags), .two 0x14 (flagWord s.port.enables), .two 0x16 (flagWord (eventsShown s)),
    .one 0x18 s.port.paramSelect.toNat, .two 0x19 s.port.paramTarget, .one 0x1B s.port.paramPriority.toNat,
    .one 0x1C s.port.paramTag.toNat, .one 0x1D s.port.cmd.toNat, .one 0x1E s.port.cmdResult.code ]

/-- 0x20 to 0x26: store access and the selects; STORE_KEY reads 0 (R157). -/
def storeFields (s : State) : List WindowField :=
  [ .one 0x20 (bitAt 0 s.store.write.isSome + 2 * s.store.lastOutcome.code + 8 * s.store.key.code
      + bitAt 5 s.store.supplyLow),
    .one 0x21 s.store.writeAddress.toNat, .one 0x22 0, .one 0x23 s.port.storeAddr.toNat,
    .one 0x24 (Memory.read s.store.cells s.port.storeAddr.toNat).toNat,
    .one 0x25 s.port.rowSelect.toNat, .one 0x26 s.port.channelSelect.toNat ]

/-- 0x28 to 0x3D: the round result and the digests. -/
def resultFields (s : State) : List WindowField :=
  let r := s.share.result
  [ .two 0x28 (half r.total), .two 0x2A (half r.floors), .two 0x2C (half r.excess), .two 0x2E (half r.capacity),
    .two 0x30 (half r.headroom), .two 0x32 (half s.share.shortfall.share), .two 0x34 (half r.shedTarget),
    .two 0x36 (half r.grantAmount),
    .one 0x38 (bitAt 0 r.granted + bitAt 1 r.agreement + 16 * r.grantTag.toNat),
    .two 0x3A s.share.carried, .two 0x3C s.share.compare ]

/-- 0x3E to 0x41: the ask record; the amount and the owner read 0 while it is NONE (R166). -/
def askFields (s : State) : List WindowField :=
  let a := s.share.ask
  [ .one 0x3E (a.state.code + bitAt 2 a.grantedBefore + 16 * a.priority.toNat),
    .one 0x3F (a.tag.toNat + 16 * (match a.owner with | some o => o.channel.toNat | none => 0)),
    .two 0x40 (half (if a.state = .none then 0 else a.amount)) ]

/-- The priority and tag shown for an ask that may be absent; an absent one shows free values (log 14). -/
def shownAskPriority (free : Nat) : Option Ask → Nat
  | some a => a.priority.toNat
  | none => (Config.freeAskPriority free).toNat

def shownAskTag (free : Nat) : Option Ask → Nat
  | some a => a.tag.toNat
  | none => (Config.freeAskTag free).toNat

/-- 0x42 to 0x4F: the own record; every field reads 0 while there is none (R166). -/
def ownFields (s : State) : List WindowField :=
  match s.share.own with
  | none =>
    [ .one 0x42 0, .one 0x43 0, .two 0x44 0, .two 0x46 0, .two 0x48 0, .two 0x4A 0, .one 0x4C 0, .one 0x4D 0, .two 0x4E 0 ]
  | some o =>
    let c := o.body
    [ .one 0x42 (1 + bitAt 1 o.completed + bitAt 3 c.joining + bitAt 4 c.isolated + bitAt 5 c.hold + bitAt 6 c.shortfall),
      .one 0x43 (c.priority.toNat + 16 * shownAskPriority s.freeIndex c.ask),
      .two 0x44 (half c.held), .two 0x46 (half c.floor), .two 0x48 c.heard, .two 0x4A c.digest,
      .one 0x4C o.sequence.toNat, .one 0x4D (shownAskTag s.freeIndex c.ask), .two 0x4E (half (askAmount c.ask)) ]

/-- 0x50 to 0x5F: the row named by ROW_SELECT (Table 11-9); an ABSENT row shows every field cleared (R156). -/
def rowFields (s : State) : List WindowField :=
  let r := Sixteen.get s.peers s.port.rowSelect
  let priority := if r.state = .absent then 0 else shownAskPriority s.freeIndex r.ask
  let tag := if r.state = .absent then 0 else shownAskTag s.freeIndex r.ask
  [ .one 0x50 (r.state.code + bitAt 2 r.mismatch + bitAt 3 r.received + bitAt 4 r.joining + bitAt 5 r.isolated
      + bitAt 6 r.hold + bitAt 7 r.shortfall),
    .one 0x51 (r.priority.toNat + 16 * priority), .one 0x52 r.lastSequence.toNat, .one 0x53 r.framesLost,
    .one 0x54 (r.missed + 16 * tag), .one 0x55 r.silentRounds,
    .two 0x56 (half r.held), .two 0x58 (half r.floor), .two 0x5A r.heard, .two 0x5C r.digest,
    .two 0x5E (half (askAmount r.ask)) ]

/-- The place of a channel's request in the queue, 0 for the head. -/
def placeInQueue (c : Chan) (rs : List Request) : Nat := rs.findIdx fun r => decide (r.channel = c)

/-- 0x63 and 0x6A to 0x6D: the request queued for a channel; 0 when none is (R167). -/
def requestFields (c : Chan) (s : State) : List WindowField :=
  match requestFor c s.demand.requests with
  | none => [ .one 0x63 0, .two 0x6A 0, .one 0x6C 0, .one 0x6D 0 ]
  | some r =>
    [ .one 0x63 (1 + 2 * placeInQueue c s.demand.requests + 16 * r.priority.toNat), .two 0x6A (half r.target),
      .one 0x6C r.tag.toNat, .one 0x6D r.age ]

/-- 0x60 to 0x74: the channel named by CHANNEL_SELECT (Table 11-10). -/
def channelFields (s : State) : List WindowField :=
  let c := s.port.channelSelect
  let ch := s.outputs.channels.get c
  let x := s.sense.channels.get c
  let l := s.demand.lastResults.get c
  [ .one 0x60 (bitAt 0 ch.tripped + bitAt 1 ch.gate.isSome + bitAt 2 ch.cut + bitAt 3 x.overdraw + 16 * ch.priority.toNat),
    .one 0x61 l.code.code, .one 0x62 l.tag.toNat,
    .two 0x64 (half ch.committed), .two 0x66 (half ch.applied), .two 0x68 (half (ch.gate.getD 0)),
    .two 0x6E (half x.reference), .two 0x70 (half x.raw), .two 0x72 (half x.measured), .one 0x74 x.overdrawCount ]
    ++ requestFields c s

/-- Every field of the window (Table 11-7). -/
def windowFields (s : State) : List WindowField :=
  identityFields s ++ stationFields s ++ commandFields s ++ storeFields s ++ resultFields s ++ askFields s ++ ownFields s
    ++ rowFields s ++ channelFields s

/-- The byte an address presents; an unassigned one presents 0 (R152). -/
def windowByte (s : State) (a : BitVec 7) : Byte := ((windowFields s).findSome? (WindowField.byteAt a.toNat)).getD 0

/-- What a read at an address puts into the read latch (R153). -/
def windowLatch (s : State) (a : BitVec 7) : Option Latched := (windowFields s).findSome? (WindowField.latchAt a.toNat)

end Sys2Proof.Machine
end

