-- ==== Sys2Proof/Machine/Operands.lean ====
section
/-! DEFINITION. How a byte reaches the window: the operand forms of the local port's commands (R151 to R157, R166). -/

namespace Sys2Proof.Machine

/-- Change the local port. -/
def onPort (f : LocalPort → LocalPort) (s : State) : State := { s with port := f s.port }

/-- Where CMD stands (Table 11-7). -/
def cmdAddress : BitVec 7 := 0x1D

/-- Where STORE_KEY stands. -/
def storeKeyAddress : BitVec 7 := 0x22

/-- The addresses that rows of their own take: RAW_EVENTS, EN, CMD and STORE_KEY. -/
def hasOwnRow (a : BitVec 7) : Bool :=
  decide (a = 0x12 ∨ a = 0x13 ∨ a = 0x14 ∨ a = 0x15 ∨ a = cmdAddress ∨ a = storeKeyAddress)

/-- A data byte is taken at the current address of a write transaction (R151 to R153): the read latch is emptied and the
address moves on. -/
def LocalPort.takeByte (address : BitVec 7) (p : LocalPort) : LocalPort :=
  { p with latch := none, link := .writing (address + 1) }

/-- Take a data byte where its address passes a test; at any other address, and outside a write transaction, the command
is not this event and nothing happens (log 12). -/
def takeWrite (ok : BitVec 7 → Bool) (effect : BitVec 7 → State → State) (s : State) : State :=
  match s.port.link with
  | .writing a => if ok a then effect a (onPort (LocalPort.takeByte a) s) else s
  | .released | .ignored | .awaiting | .reading _ => s

/-- The outcome of a command (R154). -/
def setResult (code : CmdResult) (s : State) : State := onPort (fun p => { p with cmdResult := code }) s

/-- A command code written to CMD (R154): its block decides it at once and CMD_RESULT takes the outcome. -/
def takeCommand (code : Byte) (decision : State → CmdResult × State) (s : State) : State :=
  takeWrite (fun a => decide (a = cmdAddress))
    (fun _ t =>
      let outcome := decision (onPort (fun p => { p with cmd := code }) t)
      setResult outcome.1 outcome.2) s

/-- A byte stored at a writable address (R155 to R157, R166, R167); at every other address it is ignored. -/
def LocalPort.storeValue (address : BitVec 7) (value : Byte) (p : LocalPort) : LocalPort :=
  if address = 0x18 then { p with paramSelect := value }
  else if address = 0x19 then { p with paramTarget := halfOf value (highByte p.paramTarget) }
  else if address = 0x1A then { p with paramTarget := halfOf (lowByte p.paramTarget) value }
  else if address = 0x1B then { p with paramPriority := value }
  else if address = 0x1C then { p with paramTag := value }
  else if address = 0x23 then { p with storeAddr := value }
  else if address = 0x24 then { p with writeData := value }
  else if address = 0x25 then { p with rowSelect := value.setWidth 4 }
  else if address = 0x26 then { p with channelSelect := value.setWidth 2 }
  else p

/-- The byte that a read captures (R153): the latched high byte at its own address, else what the window presents. -/
def captured (s : State) (a : BitVec 7) : Byte :=
  match s.port.latch with
  | some l => if l.address = a then l.value else windowByte s a
  | none => windowByte s a

/-- A read byte is captured (R152, R153): the latch is consumed, and takes the high byte when the low byte of a two-byte
value was captured. -/
def captureByte (s : State) : State :=
  match s.port.link with
  | .reading a =>
    { s with
      port := { s.port with dataOut := some (captured s a), latch := windowLatch s a, link := .reading (a + 1) }
      freeIndex := s.freeIndex + 1 }
  | .released | .ignored | .awaiting | .writing _ => s

/-- Select goes low (R151): a transaction begins, unless the part is held in reset, when it is ignored to its end. -/
def selectLow (s : State) : State :=
  match s.port.link with
  | .released =>
    if s.phase.held then onPort (fun p => { p with link := .ignored }) s
    else onPort (fun p => { p with link := .awaiting, dataOut := some 0 }) s
  | .ignored | .awaiting | .reading _ | .writing _ => s

/-- The address byte (R151): its top bit is 1 for a read, and its other bits are the starting address. -/
def takeAddress (value : Byte) (s : State) : State :=
  match s.port.link with
  | .awaiting =>
    let a : BitVec 7 := value.setWidth 7
    onPort (fun p => { p with link := if value.msb then .reading a else .writing a }) s
  | .released | .ignored | .reading _ | .writing _ => s

/-- Select goes high (R151): direction, address and any partial byte are forgotten, and the data output is released. -/
def selectHigh (s : State) : State := onPort (fun p => { p with link := .released, dataOut := none }) s

end Sys2Proof.Machine
end

