-- ==== Sys2Proof/Machine/CommandRows.lean ====
section
/-! DEFINITION. Meanings: the bytes written to CMD (R154, Table 11-8). -/

namespace Sys2Proof.Machine

/-- SUBMIT (R102 to R106). -/
def execSubmit (s : State) : Host.Outcome State Fault Refusal := .next (takeCommand 1 Machine.submit s)

/-- WITHDRAW (R109). -/
def execWithdraw (s : State) : Host.Outcome State Fault Refusal := .next (takeCommand 2 Machine.withdraw s)

/-- CLEAR (R126, R135). -/
def execClear (s : State) : Host.Outcome State Fault Refusal := .next (takeCommand 3 clearTrip s)

/-- FORGET (R36, R31, R92). -/
def execForget (s : State) : Host.Outcome State Fault Refusal := .next (takeCommand 4 Machine.forget s)

/-- PARK (R94, R111, R124). -/
def execPark (s : State) : Host.Outcome State Fault Refusal := .next (takeCommand 5 Machine.park s)

/-- REJOIN (R96, R84). -/
def execRejoin (s : State) : Host.Outcome State Fault Refusal := .next (takeCommand 6 Machine.rejoin s)

/-- STORE_WRITE (R146). -/
def execStoreWrite (s : State) : Host.Outcome State Fault Refusal := .next (takeCommand 7 Machine.storeWrite s)

/-- RESTART (R150): a refusal has its code in CMD_RESULT; an accepted one is followed by a reset that leaves CMD and
CMD_RESULT at 0 (R154). -/
def execRestart (s : State) : Host.Outcome State Fault Refusal :=
  .next (
    match restartRefusal s with
    | some code => takeCommand 8 (fun t => (code, t)) s
    | none => takeWrite (fun a => decide (a = cmdAddress)) (fun _ t => beginReset .restart t) s)

/-- REFUSED_UNKNOWN (R154, R166): a byte that is no command code; a code of a command is not this event (log 12). -/
def execRefusedUnknown (code : Byte) (s : State) : Host.Outcome State Fault Refusal :=
  .next (if code = 0 ∨ 8 < code.toNat then takeCommand code (fun t => (.refusedUnknown, t)) s else s)

end Sys2Proof.Machine
end

