-- ==== Sys2Proof/Machine/LineRows.lean ====
section
/-! DEFINITION. Meanings: what the receiver hears (R1 to R6). -/

namespace Sys2Proof.Machine

/-- RECEIVER_READY (R2): 3 recessive bit times in SYNCHRONISING. -/
def execReceiverReady (s : State) : Host.Outcome State Fault Refusal :=
  .next (onLine LineInterface.synchronised s)

/-- SYNCHRONISING_TRANSITION (R2). -/
def execSynchronisingTransition (s : State) : Host.Outcome State Fault Refusal :=
  .next (onLine LineInterface.transition s)

/-- START_BIT_CONFIRMED (R1, R3): the middle sample of a start bit; a recessive one is a false start. -/
def execStartBitConfirmed (dominant : Bool) (s : State) : Host.Outcome State Fault Refusal :=
  .next (onLine (LineInterface.startBit dominant) s)

/-- CHARACTER_SLOT_END (R1, R3). -/
def execCharacterSlotEnd (value : Byte) (stopRecessive staysDominant : Bool) (s : State) :
    Host.Outcome State Fault Refusal :=
  .next (onLine (LineInterface.endSlot value stopRecessive staysDominant) s)

/-- RECEPTION_END (R4 to R6, R25 to R31, R91, R92, R97). -/
def execReceptionEnd (s : State) : Host.Outcome State Fault Refusal := .next (endReception s)

end Sys2Proof.Machine
end

