-- ==== Sys2Proof/Machine/OutputRows.lean ====
section
/-! DEFINITION. Meanings: output periods, on counts, conversions and trips (chapters 7 and 8). -/

namespace Sys2Proof.Machine

/-- PERIOD_START (R117, R118, R131), while the output period timer runs; a trip still to be taken comes first (log 5). -/
def execPeriodStart (s : State) : Host.Outcome State Fault Refusal :=
  .next (if s.outputs.running then startPeriod (takeTripRequests s) else s)

/-- ON_COUNT_END (R118): the output of a channel goes low within the period. -/
def execOnCountEnd (c : Chan) (s : State) : Host.Outcome State Fault Refusal :=
  .next (if s.outputs.running then onChannel c Channel.endOnCount s else s)

/-- CONVERSION_PASS (R131): the pass of the period begins with channel 0, once in a period. -/
def execConversionPass (s : State) : Host.Outcome State Fault Refusal :=
  .next (
    if s.outputs.running = true ∧ s.sense.converter = .idle ∧ s.sense.passBegun = false then
      let t := takeTripRequests s
      { t with sense := { t.sense with converter := .converting 0, passBegun := true } }
    else s)

/-- CONVERSION_COMPLETE (R132 to R135): the result is taken for the channel being converted, and the trip request it
brings is taken in the same step, or by a TRIP_REQUEST that is the very next command (log 5). -/
def execConversionComplete (raw : BitVec 10) (trip : TripTaking) (s : State) : Host.Outcome State Fault Refusal :=
  .next (
    match s.sense.converter with
    | .idle | .tripping _ => s
    | .converting c => handTripRequest c trip (completeConversion c raw (takeTripRequests s)))

/-- TRIP_REQUEST (R134, R125, R110). -/
def execTripRequest (c : Chan) (s : State) : Host.Outcome State Fault Refusal := .next (takeTripRequest c s)

end Sys2Proof.Machine
end

