-- ==== Sys2Proof/Machine/PortRows.lean ====
section
/-! DEFINITION. Meanings: the transactions of the local port and the bytes that are no command (R151 to R160, R167). -/

namespace Sys2Proof.Machine

/-- RAW_EVENTS (R158): each 1 clears its flag. -/
def execRawEvents (value : Byte) (s : State) : Host.Outcome State Fault Refusal :=
  .next (takeWrite (fun a => decide (a = 0x12 ∨ a = 0x13))
    (fun a => onPort fun p => { p with flags := clearFlags (decide (a = 0x13)) value p.flags }) s)

/-- EN (R159). -/
def execEn (value : Byte) (s : State) : Host.Outcome State Fault Refusal :=
  .next (takeWrite (fun a => decide (a = 0x14 ∨ a = 0x15))
    (fun a => onPort fun p => { p with enables := writeEnables (decide (a = 0x15)) value p.enables }) s)

/-- REGISTER_WRITE (R152, R155 to R157, R167): a byte at any address that has no row of its own. -/
def execRegisterWrite (value : Byte) (s : State) : Host.Outcome State Fault Refusal :=
  .next (takeWrite (fun a => !hasOwnRow a) (fun a => onPort (LocalPort.storeValue a value)) s)

/-- READ_LATCH (R152, R153): a read byte is captured. -/
def execReadLatch (s : State) : Host.Outcome State Fault Refusal := .next (captureByte s)

/-- TRANSACTION_START (R151). -/
def execTransactionStart (s : State) : Host.Outcome State Fault Refusal := .next (selectLow s)

/-- ADDRESS_BYTE (R151). -/
def execAddressByte (value : Byte) (s : State) : Host.Outcome State Fault Refusal := .next (takeAddress value s)

/-- TRANSACTION_END (R151). -/
def execTransactionEnd (s : State) : Host.Outcome State Fault Refusal := .next (selectHigh s)

end Sys2Proof.Machine
end

