-- ==== Sys2Proof/Machine/ResetRows.lean ====
section
/-! DEFINITION. Meanings: the resets, the end of a reset and the end of start-up (R82, R139, R144, R149). -/

namespace Sys2Proof.Machine

/-- POWER_ON (R149): a reset of cause POWER begins. -/
def execPowerOn (s : State) : Host.Outcome State Fault Refusal := .next (beginReset .power s)

/-- RESET_PIN_ASSERTED (R149): a reset of cause PIN begins. -/
def execResetPinAsserted (s : State) : Host.Outcome State Fault Refusal := .next (beginReset .pin s)

/-- SUPPLY_RESET (R148, R149): a reset of cause SUPPLY begins. -/
def execSupplyReset (s : State) : Host.Outcome State Fault Refusal := .next (beginReset .supply s)

/-- RESET_END (R139, R149): no cause remains, and start-up begins by reading the straps. -/
def execResetEnd (straps : Station) (s : State) : Host.Outcome State Fault Refusal := .next (endReset straps s)

/-- START_UP_END (R82, R140 to R144). -/
def execStartUpEnd (s : State) : Host.Outcome State Fault Refusal := .next (endStartUp s)

end Sys2Proof.Machine
end

