-- ==== Sys2Proof/Machine/RoundRows.lean ====
section
/-! DEFINITION. Meanings: the round close, what it brings to its limit, the share computation and the line watch. -/

namespace Sys2Proof.Machine

/-- ROUND_CLOSE (R7, R8, R32 to R35, R43, R83, R85, R88, R92, R108). -/
def execRoundClose (order : CloseOrder) (s : State) : Host.Outcome State Fault Refusal := .next (closeRound order s)

/-- LEASE_EXPIRY (R32; log 4). -/
def execLeaseExpiry (row : Station) (s : State) : Host.Outcome State Fault Refusal := .next (takeLeaseExpiry row s)

/-- RETIRE_EXPIRY (R33; log 4). -/
def execRetireExpiry (row : Station) (s : State) : Host.Outcome State Fault Refusal := .next (takeRetireExpiry row s)

/-- LISTEN_COUNT_EXPIRY (R83, R84; log 3). -/
def execListenCountExpiry (s : State) : Host.Outcome State Fault Refusal := .next (takeListenExpiry s)

/-- JOIN_COUNT_EXPIRY (R86; log 3). -/
def execJoinCountExpiry (s : State) : Host.Outcome State Fault Refusal := .next (takeJoinExpiry s)

/-- ISOLATION_COUNT_EXPIRY (R88, R89, R123; log 3). -/
def execIsolationCountExpiry (s : State) : Host.Outcome State Fault Refusal := .next (takeIsolationExpiry s)

/-- ASK_LIMIT_EXPIRY (R108; log 3). -/
def execAskLimitExpiry (s : State) : Host.Outcome State Fault Refusal := .next (expireHead s)

/-- SHARE_COMPUTATION_COMPLETION (R46, R72, R107, R122, R12). -/
def execShareComputationCompletion (s : State) : Host.Outcome State Fault Refusal := .next (completeShare s)

/-- LINE_WATCH_EXPIRY (R9, R83, R86, R89). -/
def execLineWatchExpiry (s : State) : Host.Outcome State Fault Refusal := .next (expireLineWatch s)

end Sys2Proof.Machine
end

