-- ==== Sys2Proof/Machine/SendRows.lean ====
section
/-! DEFINITION. Meanings: the attempts of the transmitter (R10 to R16). -/

namespace Sys2Proof.Machine

/-- DEFERRAL_EXPIRY (R11, R12): the attempt that it begins builds its frame (R66, R70). -/
def execDeferralExpiry (s : State) : Host.Outcome State Fault Refusal := .next (expireDeferral s)

/-- COLLISION (R14, R15). -/
def execCollision (s : State) : Host.Outcome State Fault Refusal := .next (collide s)

/-- TRANSMIT_COMPLETE (R16, R64, R95, R106, R120). -/
def execTransmitComplete (s : State) : Host.Outcome State Fault Refusal := .next (completeTransmit s)

end Sys2Proof.Machine
end

