-- ==== Sys2Proof/Machine/StoreRows.lean ====
section
/-! DEFINITION. Meanings: the ends of a write operation, the supply threshold and the key (R145, R147, R148). -/

namespace Sys2Proof.Machine

/-- WRITE_OPERATION_DONE (R138, R147). -/
def execWriteOperationDone (s : State) : Host.Outcome State Fault Refusal := .next (finishWrite s)

/-- WRITE_TIMEOUT (R147). -/
def execWriteTimeout (s : State) : Host.Outcome State Fault Refusal := .next (timeOutWrite s)

/-- SUPPLY_LOW (R148, R147). -/
def execSupplyLow (below : Bool) (s : State) : Host.Outcome State Fault Refusal := .next (crossSupply below s)

/-- STORE_KEY (R145, R157). -/
def execStoreKey (value : Byte) (s : State) : Host.Outcome State Fault Refusal :=
  .next (takeWrite (fun a => decide (a = storeKeyAddress))
    (fun _ => onStore fun x => { x with key := x.key.next value }) s)

end Sys2Proof.Machine
end

