-- ==== Sys2Proof/Machine/Dispatch.lean ====
section
/-! DEFINITION. The meaning of each command, one arm per row of the table. -/

namespace Sys2Proof.Machine

/-- A command's effect on everything but the queue. -/
def exec (i : Instr) (s : State) : Host.Outcome State Fault Refusal :=
  match i with
  | .powerOn => Sys2Proof.Machine.execPowerOn s
  | .resetPinAsserted => Sys2Proof.Machine.execResetPinAsserted s
  | .supplyReset => Sys2Proof.Machine.execSupplyReset s
  | .resetEnd straps => Sys2Proof.Machine.execResetEnd straps s
  | .startUpEnd => Sys2Proof.Machine.execStartUpEnd s
  | .receiverReady => Sys2Proof.Machine.execReceiverReady s
  | .receptionEnd => Sys2Proof.Machine.execReceptionEnd s
  | .roundClose order => Sys2Proof.Machine.execRoundClose order s
  | .leaseExpiry row => Sys2Proof.Machine.execLeaseExpiry row s
  | .retireExpiry row => Sys2Proof.Machine.execRetireExpiry row s
  | .listenCountExpiry => Sys2Proof.Machine.execListenCountExpiry s
  | .joinCountExpiry => Sys2Proof.Machine.execJoinCountExpiry s
  | .isolationCountExpiry => Sys2Proof.Machine.execIsolationCountExpiry s
  | .askLimitExpiry => Sys2Proof.Machine.execAskLimitExpiry s
  | .shareComputationCompletion => Sys2Proof.Machine.execShareComputationCompletion s
  | .deferralExpiry => Sys2Proof.Machine.execDeferralExpiry s
  | .collision => Sys2Proof.Machine.execCollision s
  | .transmitComplete => Sys2Proof.Machine.execTransmitComplete s
  | .lineWatchExpiry => Sys2Proof.Machine.execLineWatchExpiry s
  | .periodStart => Sys2Proof.Machine.execPeriodStart s
  | .onCountEnd channel => Sys2Proof.Machine.execOnCountEnd channel s
  | .conversionPass => Sys2Proof.Machine.execConversionPass s
  | .conversionComplete raw trip => Sys2Proof.Machine.execConversionComplete raw trip s
  | .tripRequest channel => Sys2Proof.Machine.execTripRequest channel s
  | .submit => Sys2Proof.Machine.execSubmit s
  | .withdraw => Sys2Proof.Machine.execWithdraw s
  | .clear => Sys2Proof.Machine.execClear s
  | .forget => Sys2Proof.Machine.execForget s
  | .park => Sys2Proof.Machine.execPark s
  | .rejoin => Sys2Proof.Machine.execRejoin s
  | .storeWrite => Sys2Proof.Machine.execStoreWrite s
  | .restart => Sys2Proof.Machine.execRestart s
  | .refusedUnknown code => Sys2Proof.Machine.execRefusedUnknown code s
  | .writeOperationDone => Sys2Proof.Machine.execWriteOperationDone s
  | .writeTimeout => Sys2Proof.Machine.execWriteTimeout s
  | .supplyLow below => Sys2Proof.Machine.execSupplyLow below s
  | .storeKey value => Sys2Proof.Machine.execStoreKey value s
  | .rawEvents value => Sys2Proof.Machine.execRawEvents value s
  | .en value => Sys2Proof.Machine.execEn value s
  | .registerWrite value => Sys2Proof.Machine.execRegisterWrite value s
  | .readLatch => Sys2Proof.Machine.execReadLatch s
  | .transactionStart => Sys2Proof.Machine.execTransactionStart s
  | .addressByte value => Sys2Proof.Machine.execAddressByte value s
  | .transactionEnd => Sys2Proof.Machine.execTransactionEnd s
  | .startBitConfirmed dominant => Sys2Proof.Machine.execStartBitConfirmed dominant s
  | .characterSlotEnd value stopRecessive staysDominant => Sys2Proof.Machine.execCharacterSlotEnd value stopRecessive staysDominant s
  | .synchronisingTransition => Sys2Proof.Machine.execSynchronisingTransition s

end Sys2Proof.Machine
end

