-- ==== Sys2Proof/Machine/Step.lean ====
section
/-! DEFINITION. One step: the command at the front of the queue, or one bit time when none waits. -/

namespace Sys2Proof.Machine

/-- Replace the queue of commands. -/
def State.withPending (s : State) (cs : List Instr) : State := { s with pending := cs }

/-- One step. On an empty queue one bit time passes (log 2). -/
def step (s : State) : Host.Outcome State Fault Refusal :=
  match s.pending with
  | [] => .next (passBitTime s)
  | c :: rest => exec c (s.withPending rest)

/-- The state with the command a word spells at the front of its queue; no word spells one (log 22). -/
def State.withFetchWord (s : State) (nbits w : Nat) : State :=
  match decodeTableWord nbits w with
  | some c => s.withPending (c :: s.pending)
  | none => s

end Sys2Proof.Machine
end

