-- ==== Sys2Proof/Safety.lean ====
section
/-! DEFINITION. Conditions on a state that the rules promise, as Bool predicates over plain data. -/

namespace Sys2Proof.Machine

/-- The part is neither held in reset nor in start-up. -/
def Phase.isRunning : Phase → Bool
  | .running => true
  | .inReset _ | .startUp => false

/-- Until start-up ends, every block but the store and the local port is as after reset (R18, R23, R42, R81, R100, R115,
R130, R149). -/
def restsUntilStartUp (s : State) : Bool :=
  s.phase.isRunning
    || decide (s.line = State.reset.line ∧ s.peers = State.reset.peers ∧ s.share = State.reset.share
        ∧ s.member = State.reset.member ∧ s.demand = State.reset.demand ∧ s.outputs = State.reset.outputs
        ∧ s.sense = State.reset.sense ∧ s.config = State.reset.config)

/-- The applied total that a period start would set. -/
def totalToApply (chs : Four Channel) : Nat :=
  chs.q0.levelToApply + chs.q1.levelToApply + chs.q2.levelToApply + chs.q3.levelToApply

/-- No channel is gated. -/
def ungated (chs : Four Channel) : Bool := chs.toList.all fun ch => ch.gate.isNone

/-- The station states in which nothing may be committed (R95, R128). -/
def StationState.standsAtZero : StationState → Bool
  | .start | .listen | .joining | .parking | .parked | .fault => true
  | .member | .isolated => false

/-- The station states in which nothing is applied (R128). -/
def StationState.appliesNothing : StationState → Bool
  | .start | .listen | .joining | .parked | .fault => true
  | .member | .isolated | .parking => false

/-- What the frame in flight promises of the channels: a CLAIM announces at least what is committed and applied (R66),
and a LEAVE leaves a PARKING station with nothing applied (R20). -/
def flightFrameHolds (s : State) : Bool :=
  match s.line.transmitter with
  | .silent | .idle => true
  | .sending (.claim _ _ body) =>
    s.share.flight.isNone
      && decide (appliedTotal s.outputs.channels ≤ body.bound ∧ committedTotal s.outputs.channels ≤ body.bound)
  | .sending (.leave _ _ _) =>
    s.share.flight.isNone && decide (s.member.state = .parking ∧ appliedTotal s.outputs.channels = 0)

/-- The own record shows a frame completed in this round. -/
def ownCompletedNow (s : State) : Bool :=
  match s.share.own with
  | none => false
  | some o => o.completed

/-- Where a gate can stand (R120): not after an own CLAIM of the round has completed, nor at a completion whose snapshot
shows one. -/
def gatesPlaced (s : State) : Bool :=
  (!ownCompletedNow s || (ungated s.outputs.channels && s.share.flight.isNone))
    && (s.share.flight.isNone || !s.share.snapshot.ownCompleted || ungated s.outputs.channels)

/-- The station draws no more than it has announced (R119), with the conditions that keep it so: R20, R66, R75, R90, R95,
R120, R128. -/
def drawsWithinBound (s : State) : Bool :=
  restsUntilStartUp s
    && decide (appliedTotal s.outputs.channels ≤ recordBound s.share.own)
    && decide (totalToApply s.outputs.channels ≤ recordBound s.share.own)
    && flightFrameHolds s && gatesPlaced s
    && (decide (s.member.state = .member) || decide (s.share.ask.state = .none))
    && (!s.member.state.standsAtZero || decide (committedTotal s.outputs.channels = 0))
    && (!decide (s.member.state = .isolated) || decide (committedTotal s.outputs.channels ≤ s.config.floor))
    && (!s.member.state.appliesNothing || decide (appliedTotal s.outputs.channels = 0))

/-- One request goes before another (R100). -/
def Request.goesBefore (a b : Request) : Bool :=
  decide (b.priority < a.priority) || (decide (a.priority = b.priority) && decide (a.arrival < b.arrival))

/-- Every request goes before all that follow it, and none of them is for its channel. -/
def inQueueOrder : List Request → Bool
  | [] => true
  | r :: rest => rest.all (fun q => r.goesBefore q && decide (r.channel ≠ q.channel)) && inQueueOrder rest

/-- The demand queue is as R100 says: ordered, one request per channel, and so at most four. -/
def queueInOrder (s : State) : Bool :=
  inQueueOrder s.demand.requests && s.demand.requests.all (fun r => decide (r.arrival < s.demand.nextArrival))

/-- A channel's levels are within its configured max (R115). -/
def Channel.withinMax (entry : ChannelEntry) (ch : Channel) : Bool :=
  decide (ch.committed ≤ entry.max ∧ ch.applied ≤ entry.max)

/-- No level exceeds its channel's max, and no queued request would bring one above it (R102, R115). -/
def levelsWithinMax (s : State) : Bool :=
  restsUntilStartUp s
    && (Four.zipWith Channel.withinMax s.config.entries s.outputs.channels).toList.all id
    && s.demand.requests.all (fun r => decide (r.target ≤ (s.config.entries.get r.channel).max))

/-- A TRIPPED channel has levels 0, no gate and no queued request (R125). -/
def trippedAtZero (s : State) : Bool :=
  ([0, 1, 2, 3] : List Chan).all fun c =>
    !(s.outputs.channels.get c).tripped
      || (decide ((s.outputs.channels.get c).committed = 0 ∧ (s.outputs.channels.get c).applied = 0
            ∧ (s.outputs.channels.get c).gate = none)
          && s.demand.requests.all (fun r => decide (r.channel ≠ c)))

/-- No NORMAL channel's overdraw count has reached K, so no trip is still to be taken (R134; log 5). -/
def noTripWaits (s : State) : Bool :=
  ([0, 1, 2, 3] : List Chan).all fun c =>
    (s.outputs.channels.get c).tripped || decide ((s.sense.channels.get c).overdrawCount < s.config.tripCount)

/-- No count of the membership controller stands at its limit, and no request's age at W: no expiry is still to be taken
(R83, R86, R88, R108; log 3). -/
def noExpiryWaits (s : State) : Bool :=
  (match s.member.state with
    | .listen => decide (s.member.listenCount ≤ s.config.lease)
    | .joining => decide (s.member.joinCount < 2)
    | .member => decide (s.member.isolationCount < s.config.isolation)
    | .start | .isolated | .parking | .parked | .fault => true)
    && s.demand.requests.all (fun r => decide (s.config.askLimit = 0 ∨ r.age < s.config.askLimit))

/-- A queue to which a ROUND_CLOSE in the order `apart` leaves no expiry: no expiry row stands in front, and the isolation
row does not stand behind a completion in front (log 3). -/
def leavesNoExpiry (cs : List Instr) : Bool :=
  (cs.takeWhile isExpiryRow).isEmpty
    && match cs with
      | .shareComputationCompletion :: rest => !(rest.takeWhile isExpiryRow).contains .isolationCountExpiry
      | _ => true

/-! ### What a head re-check gives, without a fuel (R106) -/

/-- The announced bound (R86, R104): what the own record gives, and no more than a CLAIM in flight will give. -/
def boundNow (s : State) : Nat :=
  let gives := fun (b : ClaimBody) => if b.joining then b.held else max b.held b.floor
  let record := match s.share.own with
    | none => 0
    | some o => gives o.body
  match s.line.transmitter with
  | .sending (.claim _ _ b) => min record (gives b)
  | _ => record

/-- The channels after some requests have been granted: each channel at its request's target and priority. -/
def raisedBy (rs : List Request) (chs : Four Channel) : Four Channel :=
  rs.foldl (fun f r => f.set r.channel { f.get r.channel with committed := r.target, priority := r.priority }) chs

/-- The last results after some requests have ended with a code. -/
def endedBy (code : ResultCode) (rs : List Request) (results : Four LastResult) : Four LastResult :=
  rs.foldl (fun f r => f.set r.channel { tag := r.tag, code := code }) results

/-- A request fits with the channels at given levels (R104). -/
def fitsAt (s : State) (chs : Four Channel) (r : Request) : Prop :=
  s.member.state = .member ∧ s.share.hold = false ∧ s.share.shortfall.mark = false
    ∧ committedTotal chs - (chs.get r.channel).committed + r.target ≤ boundNow s

/-- One state comes from another by a head re-check (R106): the requests in front that fit, each with the channels as the
grants before it left them, are granted with DONE; the first that does not fit stays the head; nothing else changes. -/
def HeadsGranted (s t : State) : Prop :=
  ∃ granted kept, s.demand.requests = granted ++ kept
    ∧ t = { s with
        demand := { s.demand with requests := kept, lastResults := endedBy .done granted s.demand.lastResults }
        outputs := { s.outputs with channels := raisedBy granted s.outputs.channels }
        port := { s.port with
          flags := if granted = [] then s.port.flags else s.port.flags ||| Event.result.mask } }
    ∧ (∀ before r after, granted = before ++ r :: after → fitsAt s (raisedBy before s.outputs.channels) r)
    ∧ (∀ r rest, kept = r :: rest → ¬fitsAt s (raisedBy granted s.outputs.channels) r)

/-! ### The record list of the store, by address (R141) -/

/-- A record of the store: its tag, its length, and the address of its first value byte. -/
structure StoreRecord where
  tag : Nat
  length : Nat
  value : Nat
  deriving DecidableEq, Repr

/-- The record list from an address to the end of the area or to a tag of 0xFF (R141): every record has its length byte
and all its value bytes before the end. -/
inductive RecordList (cells : List Host.Cell) (stop : Nat) : Nat → List StoreRecord → Prop
  | areaEnds : RecordList cells stop stop []
  | tagEnds {p : Nat} : p < stop → Memory.read cells p = 0xFF → RecordList cells stop p []
  | record {p : Nat} {rs : List StoreRecord} : p + 1 < stop → Memory.read cells p ≠ 0xFF →
      p + 2 + (Memory.read cells (p + 1)).toNat ≤ stop →
      RecordList cells stop (p + 2 + (Memory.read cells (p + 1)).toNat) rs →
      RecordList cells stop p
        ({ tag := (Memory.read cells p).toNat, length := (Memory.read cells (p + 1)).toNat, value := p + 2 } :: rs)

/-- An area of some length holds exactly one CIRCUIT and exactly one STATION record, of their lengths, with their value
bytes from these addresses on (R141). -/
def StoreRecords (cells : List Host.Cell) (length circuit station : Nat) : Prop :=
  ∃ rs, RecordList cells (4 + length) 4 rs
    ∧ rs.filter (fun r => decide (r.tag = 1)) = [{ tag := 1, length := 8, value := circuit }]
    ∧ rs.filter (fun r => decide (r.tag = 2)) = [{ tag := 2, length := 34, value := station }]

/-- A two-byte value of the store, low byte first (R165). -/
def storeWord (cells : List Host.Cell) (a : Nat) : Nat :=
  (Memory.read cells a).toNat + 256 * (Memory.read cells (a + 1)).toNat

/-! ### What the orders of R54, R57 and R121 give, without a walk -/

/-- What the channels that give before a channel in a cut have committed: lower priority first, then higher number
(R121). -/
def committedAhead (chs : Four Channel) (c : Chan) : Nat :=
  (([0, 1, 2, 3] : List Chan).map fun d =>
    if (chs.get d).priority < (chs.get c).priority ∨ ((chs.get d).priority = (chs.get c).priority ∧ c < d)
    then (chs.get d).committed else 0).sum

/-- A channel after a cut with a target (R121, R120): what it gives, its cut mark, and its gate. -/
def afterCut (target : Nat) (chs : Four Channel) (c : Chan) : Channel :=
  let ch := chs.get c
  let gives := min ch.committed (committedTotal chs - target - committedAhead chs c)
  if gives = 0 then ch
  else { ch with
    committed := ch.committed - gives, cut := true
    gate := match ch.gate with
      | none => none
      | some g => if ch.committed - gives ≤ g then none else some g }

/-- The surplus of a row on the shed list, 0 for a row that is not on it (R53). -/
def shedSurplus (r : Row) : Nat :=
  if r.state = .live ∧ r.joining = false ∧ r.mismatch = false then r.held - r.floor else 0

/-- The surplus of the rows that the shed list puts before the own record: lower held priority first, then higher station
number (R54). The row of the own number is ABSENT (R23). -/
def surplusAhead (station : Station) (rows : Sixteen Row) (own : ClaimBody) : Nat :=
  (stationNumbers.map fun n =>
    let r := Sixteen.get rows n
    if r.priority < own.priority ∨ (r.priority = own.priority ∧ station ≤ n) then shedSurplus r else 0).sum

/-- The asks that the allocation puts before the own one: higher priority first, then lower station number (R56, R57). The
row of the own number is ABSENT (R23). -/
def askedAhead (station : Station) (rows : Sixteen Row) (own : Ask) : Nat :=
  (stationNumbers.map fun n =>
    let r := Sixteen.get rows n
    match r.ask with
    | none => 0
    | some a =>
      if r.state = .live ∧ r.joining = false ∧ r.mismatch = false ∧ r.hold = false
          ∧ (own.priority < a.priority ∨ (a.priority = own.priority ∧ n ≤ station))
      then a.amount else 0).sum

/-- The low addresses of the two-byte fields of the window (Tables 11-7, 11-9 and 11-10). -/
def twoByteAddresses : List (BitVec 7) :=
  [0x0A, 0x0C, 0x10, 0x12, 0x14, 0x16, 0x19, 0x28, 0x2A, 0x2C, 0x2E, 0x30, 0x32, 0x34, 0x36, 0x3A, 0x3C, 0x40, 0x44,
   0x46, 0x48, 0x4A, 0x4E, 0x56, 0x58, 0x5A, 0x5C, 0x5E, 0x64, 0x66, 0x68, 0x6A, 0x6E, 0x70, 0x72]

/-- A two-byte field of the window, its low byte at the address. -/
def windowWord (s : State) (a : BitVec 7) : Nat := (windowByte s a).toNat + 256 * (windowByte s (a + 1)).toNat

/-- The row of the own station number is ABSENT (R23). -/
def ownRowAbsent (s : State) : Bool :=
  restsUntilStartUp s && decide (Sixteen.get s.peers s.store.station = Row.cleared)

/-- The fields of a frame are within the ranges that its bytes can carry and R4 accepts. -/
def Ask.wellFormed (a : Ask) : Bool := decide (1 ≤ a.amount ∧ a.amount ≤ 4095)

def Frame.wellFormed : Frame → Bool
  | .claim _ _ c =>
    decide (c.held ≤ 4095 ∧ c.floor ≤ 4095) && !(c.joining && c.isolated) && c.ask.all Ask.wellFormed
  | .leave _ _ _ => true

/-- The station number a frame carries. -/
def Frame.source : Frame → Station
  | .claim n _ _ | .leave n _ _ => n

/-- The reception that holds a frame's bytes, heard without error. -/
def Frame.heard (f : Frame) : Reception :=
  { bytes := f.bytes, overlong := false, framingError := false, expected := expectedLength f.bytes }

end Sys2Proof.Machine
end

