-- ==== Sys2Proof/Certificates/Slice0/Obligations.lean ====
section
/-! DEFINITION. The statements for the provers. -/

section

open Sys2Proof Sys2Proof.Machine

/-! ### Steps -/

/-- A step runs the command at the front of the queue on the state with the queue's rest. -/
def Obligations.StepRunsTheFrontCommand : Prop :=
  ∀ (c : Instr) (rest : List Instr) (s : State),
    s.pending = c :: rest → step s = exec c { s with pending := rest }

/-- On an empty queue one bit time passes on an active line with no event due (the model's choice, log 2). An event is due
at the times of Table 1-3 (R1, R2, R3, R7, R9, R11, R44) and at a frame's last bit (R16); which bit times of SYNCHRONISING
count is the model's (log 25). -/
def Obligations.EmptyQueueLetsOneBitTimePass : Prop :=
  ∀ s : State, s.pending = [] →
    (let l := s.line
     let sends := ∃ f, l.transmitter = .sending f
     let idle := l.receiver ≠ .inactive ∧ l.slot = none ∧ ¬sends
     let due :=
       (l.reception ≠ none ∧ l.slot = none ∧ 3 ≤ l.idleGap)
       ∨ (idle ∧ l.deferralExpired = false ∧ 12 + 4 * s.store.station.toNat ≤ l.idleGap)
       ∨ (idle ∧ 84 ≤ l.idleGap)
       ∨ 8192 ≤ l.lineWatch
       ∨ (l.receiver = .synchronising ∧ 3 ≤ l.syncWait)
       ∨ (∃ k, l.slot = some k ∧ 10 ≤ k)
       ∨ (∃ f, l.transmitter = .sending f ∧ 10 * f.bytes.length ≤ l.sentBits)
       ∨ (∃ k, s.share.flight = some k ∧ 48 ≤ k)
     ∃ t, step s = .next t
       ∧ ((l.receiver = .inactive ∨ due) → t = s)
       ∧ (l.receiver ≠ .inactive → ¬due →
           t = { s with
             line := { l with
               slot := l.slot.map (· + 1), activityLeft := l.activityLeft - 1, lineWatch := l.lineWatch + 1
               sentBits := t.line.sentBits, idleGap := t.line.idleGap, syncWait := t.line.syncWait }
             share := { s.share with flight := s.share.flight.map (· + 1) } }
           ∧ (sends → t.line.sentBits = l.sentBits + 1) ∧ (¬sends → t.line.sentBits = l.sentBits)
           ∧ (idle → l.activityLeft = 0 → t.line.idleGap = l.idleGap + 1)
           ∧ ((¬idle ∨ 0 < l.activityLeft) → t.line.idleGap = l.idleGap)
           ∧ (l.receiver = .synchronising → l.activityLeft = 0 → t.line.syncWait = l.syncWait + 1)
           ∧ ((l.receiver ≠ .synchronising ∨ 0 < l.activityLeft) → t.line.syncWait = l.syncWait)))

/-- Every command answers a next state and leaves the queue alone (log 1, log 21). -/
def Obligations.NoCommandStopsTheMachine : Prop :=
  ∀ (c : Instr) (s : State), ∃ t, exec c s = .next t ∧ t.pending = s.pending

/-- A command whose subject is not there changes nothing (the model's choice, log 1, log 4, log 12). -/
def Obligations.CommandsWithoutTheirSubjectChangeNothing : Prop :=
  ∀ (s : State) (c : Instr),
    ((∃ straps, c = .resetEnd straps) ∧ s.phase.held = false
      ∨ c = .startUpEnd ∧ s.phase ≠ .startUp
      ∨ (c = .receiverReady ∨ c = .synchronisingTransition) ∧ s.line.receiver ≠ .synchronising
      ∨ (∃ dominant, c = .startBitConfirmed dominant) ∧ (s.line.receiver ≠ .ready ∨ s.line.slot ≠ none)
      ∨ (∃ value stop stays, c = .characterSlotEnd value stop stays) ∧ s.line.slot = none
      ∨ c = .receptionEnd ∧ (s.line.reception = none ∨ s.line.slot ≠ none)
      ∨ ((∃ order, c = .roundClose order) ∨ c = .deferralExpiry) ∧ s.line.idle = false
      ∨ c = .deferralExpiry ∧ s.line.deferralExpired = true
      ∨ (∃ n, c = .leaseExpiry n ∧ ((Sixteen.get s.peers n).state ≠ .live ∨ (Sixteen.get s.peers n).received = true
          ∨ (Sixteen.get s.peers n).agedAhead = true ∨ (Sixteen.get s.peers n).missed + 1 < s.config.lease))
      ∨ (∃ n, c = .retireExpiry n ∧ ((Sixteen.get s.peers n).state ≠ .silent
          ∨ (Sixteen.get s.peers n).agedAhead = true ∨ (Sixteen.get s.peers n).silentRounds + 1 < s.config.retire))
      ∨ (∃ n, c = .leaseExpiry n ∨ c = .retireExpiry n)
          ∧ (s.line.idle = false ∨ ∀ order rest, s.pending.dropWhile isAgingRow ≠ .roundClose order :: rest)
      ∨ c = .listenCountExpiry ∧ (s.member.state ≠ .listen ∨ s.member.listenCount ≤ s.config.lease)
      ∨ c = .joinCountExpiry ∧ (s.member.state ≠ .joining ∨ s.member.joinCount < 2)
      ∨ c = .isolationCountExpiry
          ∧ (s.member.state ≠ .member ∨ s.member.isolationCount < s.config.isolation)
      ∨ c = .askLimitExpiry ∧ (s.demand.requests = [] ∨ s.config.askLimit = 0
          ∨ ∃ r rest, s.demand.requests = r :: rest ∧ r.age < s.config.askLimit)
      ∨ c = .shareComputationCompletion ∧ s.share.flight = none
      ∨ (c = .collision ∨ c = .transmitComplete) ∧ (s.line.transmitter = .idle ∨ s.line.transmitter = .silent)
      ∨ c = .lineWatchExpiry ∧ s.line.active = false
      ∨ (c = .periodStart ∨ c = .conversionPass ∨ (∃ d, c = .onCountEnd d) ∨ ∃ d, c = .tripRequest d)
          ∧ s.outputs.running = false
      ∨ (∃ d, c = .tripRequest d ∧ ((s.outputs.channels.get d).tripped = true
          ∨ (s.sense.channels.get d).overdrawCount < s.config.tripCount))
      ∨ (∃ d, c = .onCountEnd d ∧ ((s.outputs.channels.get d).onCount = 0 ∨ 256 ≤ (s.outputs.channels.get d).onCount))
      ∨ c = .conversionPass ∧ (s.sense.converter ≠ .idle ∨ s.sense.passBegun = true)
      ∨ (∃ raw trip, c = .conversionComplete raw trip) ∧ (∀ d, s.sense.converter ≠ .converting d)
      ∨ (c = .writeOperationDone ∨ c = .writeTimeout) ∧ s.store.write = none
      ∨ (c = .submit ∨ c = .withdraw ∨ c = .clear ∨ c = .forget ∨ c = .park ∨ c = .rejoin ∨ c = .storeWrite
          ∨ c = .restart ∨ ∃ code, c = .refusedUnknown code) ∧ s.port.link ≠ .writing 0x1D
      ∨ (∃ value, c = .storeKey value) ∧ s.port.link ≠ .writing 0x22
      ∨ (∃ value, c = .rawEvents value) ∧ s.port.link ≠ .writing 0x12 ∧ s.port.link ≠ .writing 0x13
      ∨ (∃ value, c = .en value) ∧ s.port.link ≠ .writing 0x14 ∧ s.port.link ≠ .writing 0x15
      ∨ (∃ code, c = .refusedUnknown code ∧ 1 ≤ code.toNat ∧ code.toNat ≤ 8)
      ∨ (∃ value, c = .registerWrite value)
          ∧ (∀ a, s.port.link = .writing a →
              a = 0x12 ∨ a = 0x13 ∨ a = 0x14 ∨ a = 0x15 ∨ a = 0x1D ∨ a = 0x22)
      ∨ c = .readLatch ∧ (∀ a, s.port.link ≠ .reading a)
      ∨ c = .transactionStart ∧ s.port.link ≠ .released
      ∨ (∃ value, c = .addressByte value) ∧ s.port.link ≠ .awaiting) →
    exec c s = .next s

/-! ### Resets and start-up -/

/-- The values after reset that Tables 1-1, 2-1, 3-1, 4-1, 5-2, 6-1, 7-1, 8-1, 10-4 and R145, R147, R167 give. The on counts
(log 10) and the rows' mark `agedAhead` (log 4) have the model's values, which no table gives. -/
def Obligations.StateAfterResetHoldsTheTables : Prop :=
  (State.reset.line.rate = none ∧ State.reset.line.receiver = .inactive ∧ State.reset.line.reception = none
    ∧ State.reset.line.transmitter = .silent ∧ State.reset.line.attempts = 0
    ∧ State.reset.line.sentThisRound = false ∧ State.reset.line.sequence = 255 ∧ State.reset.line.idleGap = 0
    ∧ State.reset.line.lineWatch = 0 ∧ State.reset.line.discards = 0 ∧ State.reset.line.reason = .none)
  ∧ (∀ n : Station, Sixteen.get State.reset.peers n
      = { state := .absent, mismatch := false, lastSequence := 0, framesLost := 0, missed := 0, silentRounds := 0,
          received := false, held := 0, floor := 0, priority := 0, joining := false, isolated := false, hold := false,
          shortfall := false, heard := 0, digest := 0, ask := none, agedAhead := false })
  ∧ ((∀ n : Station, Sixteen.get State.reset.share.snapshot.rows n = Row.cleared)
    ∧ State.reset.share.result
      = { total := 0, floors := 0, excess := 0, capacity := 0, headroom := 0, shedTarget := 0, granted := false
          grantTag := 0, grantAmount := 0, agreement := false }
    ∧ State.reset.share.ask.amount = 0 ∧ State.reset.share.ask.priority = 0)
  ∧ (State.reset.share.snapshot.own = none ∧ State.reset.share.snapshot.ownCompleted = false
    ∧ State.reset.share.own = none ∧ State.reset.share.ask.state = .none ∧ State.reset.share.ask.tag = 0
    ∧ State.reset.share.ask.owner = none ∧ State.reset.share.ask.grantedBefore = false
    ∧ State.reset.share.hold = false ∧ State.reset.share.shortfall = { mark := false, share := 0, residual := false }
    ∧ State.reset.share.carried = 0 ∧ State.reset.share.compare = 0 ∧ State.reset.share.flight = none)
  ∧ State.reset.member = { state := .start, listenCount := 0, joinCount := 0, isolationCount := 0, cause := .none }
  ∧ (State.reset.demand.requests = [] ∧ ∀ c : Chan, State.reset.demand.lastResults.get c = { tag := 0, code := .none })
  ∧ (State.reset.outputs.running = false ∧ ∀ c : Chan, State.reset.outputs.channels.get c
      = { committed := 0, applied := 0, priority := 0, gate := none, cut := false, tripped := false, onCount := 0,
          output := false })
  ∧ (State.reset.sense.converter = .idle ∧ ∀ c : Chan,
      (State.reset.sense.channels.get c).reference = 0 ∧ (State.reset.sense.channels.get c).raw = 0
        ∧ (State.reset.sense.channels.get c).measured = 0 ∧ (State.reset.sense.channels.get c).overdrawCount = 0
        ∧ (State.reset.sense.channels.get c).overdraw = false)
  ∧ (State.reset.store.key = .locked ∧ State.reset.store.write = none ∧ State.reset.store.lastOutcome = .none)
  ∧ (State.reset.port.latch = none ∧ State.reset.port.cmd = 0 ∧ State.reset.port.cmdResult = .none
    ∧ State.reset.port.paramSelect = 0 ∧ State.reset.port.paramTarget = 0 ∧ State.reset.port.paramPriority = 0
    ∧ State.reset.port.paramTag = 0 ∧ State.reset.port.rowSelect = 0 ∧ State.reset.port.channelSelect = 0
    ∧ State.reset.port.storeAddr = 0 ∧ State.reset.port.writeData = 0 ∧ State.reset.port.flags = 0
    ∧ State.reset.port.enables = 0 ∧ interruptAsserted State.reset = false)

/-- A reset that begins returns every block to its value after reset and keeps the store's bytes; a second cause leaves the
recorded one, and every block, as it was; the end of a reset reads the straps into both places (R149, R139). What the
supply mark and the select pin do is the model's (log 6, log 7, log 11). -/
def Obligations.ResetsBeginAndEnd : Prop :=
  (∀ (c : Instr) (cause : ResetCause) (s : State),
     (c = .powerOn ∧ cause = .power ∨ c = .resetPinAsserted ∧ cause = .pin ∨ c = .supplyReset ∧ cause = .supply) →
     s.phase.held = false →
     ∃ t, exec c s = .next t
       ∧ t = { State.reset with
           phase := t.phase
           store := { State.reset.store with
             cells := s.store.cells, resetCause := cause, supplyLow := t.store.supplyLow }
           port := { State.reset.port with link := if s.port.link = .released then .released else .ignored }
           freeIndex := s.freeIndex
           pending := s.pending }
       ∧ t.phase.held = true
       ∧ t.store.supplyLow = (s.store.supplyLow || decide (cause = .power ∨ cause = .supply)))
  ∧ (∀ (c : Instr) (s : State), (c = .powerOn ∨ c = .resetPinAsserted ∨ c = .supplyReset) → s.phase.held = true →
       ∃ t, exec c s = .next t ∧ t.phase.held = true
         ∧ t = { s with phase := t.phase, store := { s.store with supplyLow := t.store.supplyLow } })
  ∧ (∀ (straps : Station) (s : State), s.phase.held = true →
       exec (.resetEnd straps) s
         = .next { s with phase := .startUp, store := { s.store with strap := straps, station := straps } })

/-- A start-up whose checks pass puts the configuration in force and enters LISTEN; one that fails puts nothing in force and
enters FAULT (R144, R2, R82, R117, R118, R130, R131). What the checks find is said by the two statements that follow. -/
def Obligations.StartUpEndsInListenOrFault : Prop :=
  (∀ (s : State) (cause : FaultCause) (l : Loaded),
     s.phase = .startUp → startUpChecks s.store.cells s.store.strap = (cause, some l) →
     ∃ t, exec .startUpEnd s = .next t
       ∧ t = { s with
           phase := .running
           config := l.config
           store := { s.store with station := l.station }
           line := { s.line with
             rate := l.rate, receiver := .synchronising, transmitter := .idle, idleGap := 0, lineWatch := 0,
             activityLeft := 0, syncWait := 0, deferralExpired := false }
           member := { s.member with state := .listen, listenCount := 0 }
           outputs := { channels := t.outputs.channels, running := true }
           sense := { s.sense with passBegun := false, channels := t.sense.channels }
           port := { s.port with flags := s.port.flags ||| Event.membership.mask } }
       ∧ ∀ c : Chan,
           (let ch := s.outputs.channels.get c
            let level := if ch.tripped then 0 else match ch.gate with
              | none => ch.committed
              | some g => min ch.committed g
            let count := 256 * level / (l.config.entries.get c).rating
            t.outputs.channels.get c = { ch with applied := level, onCount := count, output := decide (0 < count) }
            ∧ t.sense.channels.get c = { s.sense.channels.get c with
                reference := level, offset := Memory.read s.store.cells (0xE0 + c.toNat) }))
  ∧ (∀ (s : State) (cause : FaultCause),
       s.phase = .startUp → startUpChecks s.store.cells s.store.strap = (cause, none) →
       exec .startUpEnd s = .next { s with
         phase := .running
         member := { s.member with state := .fault, cause := cause }
         port := { s.port with flags := s.port.flags ||| Event.membership.mask } })

/-- The header check (R140): STORE_CRC exactly when the length or the check value is wrong, and bytes beyond the length
are not read. -/
def Obligations.HeaderDecidesStoreCrc : Prop :=
  ∀ (cells : List Host.Cell) (strap : Station),
    let length := (Memory.read cells 0).toNat + 256 * (Memory.read cells 1).toNat
    let check := (Memory.read cells 2).toNat + 256 * (Memory.read cells 3).toNat
    ((startUpChecks cells strap).1 = .storeCrc
      ↔ length = 0 ∨ 220 < length ∨ (crc16 (Memory.readRun cells 4 length)).toNat ≠ check)
    ∧ (1 ≤ length → length ≤ 220 →
        ∀ other, (∀ a, a < 4 + length → Memory.read other a = Memory.read cells a) →
          startUpChecks other strap = startUpChecks cells strap)

/-- What start-up loads is in range and meets the two relations (R142, R143), and it is what the two records hold (R141, R144,
R165, Tables 11-4 to 11-6); the first check that fails gives the cause (Table 9-3). -/
def Obligations.StartUpLoadsOnlyValuesInRange : Prop :=
  (∀ (cells : List Host.Cell) (strap : Station) (cause : FaultCause) (l : Loaded),
     startUpChecks cells strap = (cause, some l) →
     cause = .none
     ∧ (1 ≤ l.config.budget ∧ l.config.budget ≤ 4095 ∧ l.config.reserve < l.config.budget ∧ l.rate ≠ none)
     ∧ (2 ≤ l.config.lease ∧ l.config.lease ≤ 8 ∧ 2 ≤ l.config.retire ∧ l.config.retire ≤ 32
         ∧ 2 ≤ l.config.isolation ∧ l.config.isolation ≤ 16
         ∧ l.config.isolation + 2 ≤ l.config.lease + l.config.retire)
     ∧ (l.config.period ≤ 4 ∧ (l.config.askLimit = 0 ∨ 4 ≤ l.config.askLimit)
         ∧ 1 ≤ l.config.tripCount ∧ l.config.tripCount ≤ 8)
     ∧ (l.config.floor ≤ l.config.budget - l.config.reserve
         ∧ l.config.floor ≤ (l.config.entries.get 0).max + (l.config.entries.get 1).max + (l.config.entries.get 2).max
             + (l.config.entries.get 3).max)
     ∧ ∀ c : Chan, 1 ≤ (l.config.entries.get c).rating ∧ (l.config.entries.get c).rating ≤ 1023
         ∧ (l.config.entries.get c).max ≤ (l.config.entries.get c).rating
         ∧ 1 ≤ (l.config.entries.get c).scale ∧ (l.config.entries.get c).scale ≤ 4095)
  ∧ (∀ (cells : List Host.Cell) (strap : Station),
      let length := storeWord cells 0
      let headerHolds := 1 ≤ length ∧ length ≤ 220 ∧ (crc16 (Memory.readRun cells 4 length)).toNat = storeWord cells 2
      (¬headerHolds → startUpChecks cells strap = (.storeCrc, none))
      ∧ (headerHolds → (¬∃ ci st, StoreRecords cells length ci st) → startUpChecks cells strap = (.storeFormat, none))
      ∧ (headerHolds → ∀ ci st, StoreRecords cells length ci st →
          (let at8 := fun a => (Memory.read cells a).toNat
           let at16 := storeWord cells
           let entry := fun n => ({ rating := at16 (st + 6 + 7 * n), max := at16 (st + 8 + 7 * n)
                                    scale := at16 (st + 10 + 7 * n), tolerance := at8 (st + 12 + 7 * n) } : ChannelEntry)
           let held : Configuration :=
             { budget := at16 ci, reserve := at16 (ci + 2), lease := at8 (ci + 5), retire := at8 (ci + 6)
               isolation := at8 (ci + 7), floor := at16 (st + 1), period := at8 (st + 3), askLimit := at8 (st + 4)
               tripCount := at8 (st + 5), entries := ⟨entry 0, entry 1, entry 2, entry 3⟩
               circuitCode := crc16 (Memory.readRun cells ci 8) }
           let inRange := 1 ≤ held.budget ∧ held.budget ≤ 4095 ∧ held.reserve < held.budget ∧ at8 (ci + 4) ≤ 4
             ∧ 2 ≤ held.lease ∧ held.lease ≤ 8 ∧ 2 ≤ held.retire ∧ held.retire ≤ 32
             ∧ 2 ≤ held.isolation ∧ held.isolation ≤ 16
             ∧ (at8 st ≤ 15 ∨ at8 st = 255) ∧ held.floor ≤ 4095 ∧ held.period ≤ 4
             ∧ (held.askLimit = 0 ∨ 4 ≤ held.askLimit) ∧ 1 ≤ held.tripCount ∧ held.tripCount ≤ 8
             ∧ ∀ n : Chan, 1 ≤ (held.entries.get n).rating ∧ (held.entries.get n).rating ≤ 1023
                 ∧ (held.entries.get n).max ≤ (held.entries.get n).rating
                 ∧ 1 ≤ (held.entries.get n).scale ∧ (held.entries.get n).scale ≤ 4095
           let timed := held.isolation + 2 ≤ held.lease + held.retire
           let floored := held.floor ≤ held.budget - held.reserve
             ∧ held.floor ≤ (entry 0).max + (entry 1).max + (entry 2).max + (entry 3).max
           (¬inRange → startUpChecks cells strap = (.valueRange, none))
           ∧ (inRange → ¬timed → startUpChecks cells strap = (.timingConstraint, none))
           ∧ (inRange → timed → ¬floored → startUpChecks cells strap = (.floorRange, none))
           ∧ (inRange → timed → floored → startUpChecks cells strap = (.none, some
               { config := held
                 rate := match at8 (ci + 4) with
                   | 0 => some .b9600 | 1 => some .b19200 | 2 => some .b38400 | 3 => some .b57600 | 4 => some .b115200
                   | _ => none
                 station := if at8 st = 255 then strap else BitVec.ofNat 4 (at8 st) })))))

/-! ### What the line brings -/

/-- Bits and characters at the receiver (R1, R2, R3); the receiver's timers are the model's (log 2). -/
def Obligations.ReceiverTakesBitsAndCharacters : Prop :=
  (∀ s : State, s.line.receiver = .synchronising →
    exec .receiverReady s = .next { s with line := { s.line with receiver := .ready, syncWait := 3 } }
    ∧ exec .synchronisingTransition s
        = .next { s with line := { s.line with syncWait := 0, activityLeft := 10, idleGap := 0,
                                               deferralExpired := false } })
  ∧ (∀ s : State, exec (.startBitConfirmed false) s = .next s)
  ∧ (∀ s : State, s.line.receiver = .ready → s.line.slot = none →
      exec (.startBitConfirmed true) s = .next { s with
        line := { s.line with
          slot := some 0, ownEcho := false, idleGap := 0, activityLeft := 0, deferralExpired := false
          reception := some (s.line.reception.getD
            { bytes := [], overlong := false, framingError := false, expected := none }) } })
  ∧ (∀ (s : State) (k : Nat) (r : Reception) (value : Byte) (stop stays : Bool),
      s.line.slot = some k → s.line.reception = some r →
      ∃ t, exec (.characterSlotEnd value stop stays) s = .next t
        ∧ t = { s with line := { s.line with
              slot := if stop = false ∧ stays = true then some 0 else none
              ownEcho := if stop = false ∧ stays = true then false else s.line.ownEcho
              activityLeft := if stop = false ∧ stays = true then 0 else s.line.activityLeft
              idleGap := 0, deferralExpired := false, reception := t.line.reception } }
        ∧ (r.bytes.length < 19 →
            t.line.reception = some { r with
              bytes := r.bytes ++ [value], framingError := r.framingError || !stop
              expected := expectedLength (r.bytes ++ [value]) })
        ∧ (19 ≤ r.bytes.length →
            t.line.reception = some { r with overlong := true, framingError := r.framingError || !stop }))

/-- What R4 rejects adds one to the discard counter and reaches no block; an own echo reaches none either (R4, R5). What is
accepted is exactly a frame within its ranges with its own check value (R4, conditions 3 to 7; R162, R163). -/
def Obligations.DiscardsAndEchoesReachNoBlock : Prop :=
  ∀ (s : State) (r : Reception), s.line.reception = some r → s.line.slot = none →
    ((r.framingError = true ∨ r.overlong = true ∨ r.bytes.getD 0 0 ≠ 0xB6 ∨ r.expected ≠ some r.bytes.length) →
      judge r = none)
    ∧ (judge r = none → exec .receptionEnd s = .next { s with
        line := { s.line with
          reception := none, ownEcho := false, idleGap := max s.line.idleGap 3
          discards := min (s.line.discards + 1) 65535 } })
    ∧ (∀ f, judge r = some f → s.line.ownEcho = true → exec .receptionEnd s = .next { s with
        line := { s.line with reception := none, ownEcho := false, idleGap := max s.line.idleGap 3 } })
    ∧ (r.expected = expectedLength r.bytes → ∀ f, judge r = some f → f.wellFormed = true ∧ f.bytes = r.bytes)

/-- A CLAIM arrival (R25, R26, R27, R39): the row in every station state, and the rest outside ISOLATED. -/
def Obligations.ClaimArrivalReplacesItsRow : Prop :=
  ∀ (s : State) (r : Reception) (n : Station) (q : Byte) (c : ClaimBody),
    s.line.reception = some r → s.line.slot = none → judge r = some (.claim n q c) → s.line.ownEcho = false →
    n ≠ s.store.station →
    ∃ t, exec .receptionEnd s = .next t
      ∧ (s.member.state ≠ .isolated → t = { s with
          line := { s.line with reception := none, ownEcho := false, idleGap := max s.line.idleGap 3 }
          peers := t.peers
          port := { s.port with flags := if (Sixteen.get s.peers n).state = .live then s.port.flags
                                         else s.port.flags ||| Event.peer.mask } })
      ∧ flagSet .peer t = (flagSet .peer s || decide ((Sixteen.get s.peers n).state ≠ .live))
      ∧ (∀ m, m ≠ n → Sixteen.get t.peers m = Sixteen.get s.peers m)
      ∧ Sixteen.get t.peers n
        = { state := .live, mismatch := decide (c.code ≠ s.config.circuitCode), lastSequence := q
            framesLost := if (Sixteen.get s.peers n).state = .live
              then min ((Sixteen.get s.peers n).framesLost
                + (q - (Sixteen.get s.peers n).lastSequence - 1).toNat) 255
              else (Sixteen.get s.peers n).framesLost
            missed := 0, silentRounds := 0, received := true, held := c.held, floor := c.floor, priority := c.priority
            joining := c.joining, isolated := c.isolated, hold := c.hold, shortfall := c.shortfall, heard := c.heard
            digest := c.digest, ask := c.ask, agedAhead := false }

/-- A confirming frame, and no other CLAIM, takes an ISOLATED station back to MEMBER, with a head re-check (R91, R106). -/
def Obligations.ConfirmingFrameEndsIsolation : Prop :=
  ∀ (s : State) (r : Reception) (n : Station) (q : Byte) (c : ClaimBody),
    s.line.reception = some r → s.line.slot = none → judge r = some (.claim n q c) → s.line.ownEcho = false →
    n ≠ s.store.station → s.member.state = .isolated →
    ∃ t, exec .receptionEnd s = .next t
      ∧ ((c.joining = false ∧ c.code = s.config.circuitCode ∧ c.heard.getLsbD s.store.station.toNat = true) →
          t.member = { s.member with state := .member, isolationCount := 0 } ∧ flagSet .membership t = true
          ∧ HeadsGranted { s with
              line := { s.line with reception := none, ownEcho := false, idleGap := max s.line.idleGap 3 }
              peers := t.peers
              member := t.member
              port := { s.port with
                flags := (if (Sixteen.get s.peers n).state = .live then s.port.flags
                          else s.port.flags ||| Event.peer.mask) ||| Event.membership.mask } } t)
      ∧ (¬(c.joining = false ∧ c.code = s.config.circuitCode ∧ c.heard.getLsbD s.store.station.toNat = true) →
          t.member = s.member ∧ t.demand = s.demand ∧ t.outputs = s.outputs
          ∧ t = { s with
            line := { s.line with reception := none, ownEcho := false, idleGap := max s.line.idleGap 3 }
            peers := t.peers
            port := { s.port with flags := if (Sixteen.get s.peers n).state = .live then s.port.flags
                                           else s.port.flags ||| Event.peer.mask } })

/-- A LEAVE arrival (R30), and the empty-table notice it may give, with its head re-check (R31, R92, R106). -/
def Obligations.LeaveArrivalEmptiesItsRow : Prop :=
  ∀ (s : State) (r : Reception) (n : Station) (q : Byte) (code : Half),
    s.line.reception = some r → s.line.slot = none → judge r = some (.leave n q code) → s.line.ownEcho = false →
    n ≠ s.store.station →
    ∃ t, exec .receptionEnd s = .next t
      ∧ Sixteen.get t.peers n = Row.cleared
      ∧ (∀ m, m ≠ n → Sixteen.get t.peers m = Sixteen.get s.peers m)
      ∧ flagSet .peer t = true
      ∧ (s.member.state = .isolated → (∃ m, (Sixteen.get s.peers m).state ≠ .absent) →
          (∀ m, (Sixteen.get t.peers m).state = .absent) →
          t.member = { s.member with state := .member, isolationCount := 0 } ∧ flagSet .membership t = true
          ∧ HeadsGranted { s with
              line := { s.line with reception := none, ownEcho := false, idleGap := max s.line.idleGap 3 }
              peers := t.peers
              member := t.member
              port := { s.port with flags := s.port.flags ||| Event.peer.mask ||| Event.membership.mask } } t)
      ∧ ((s.member.state ≠ .isolated ∨ (∃ m, (Sixteen.get t.peers m).state ≠ .absent)
            ∨ ∀ m, (Sixteen.get s.peers m).state = .absent) →
          t = { s with
            line := { s.line with reception := none, ownEcho := false, idleGap := max s.line.idleGap 3 }
            peers := t.peers
            port := { s.port with flags := s.port.flags ||| Event.peer.mask } })

/-- A duplicate sends the station to FAULT (R97, R17, R75, R111, R127), and changes nothing there. That the ask record
keeps its amount and priority when it becomes NONE is the model's (log 15). -/
def Obligations.DuplicateSendsTheStationToFault : Prop :=
  ∀ (s : State) (r : Reception) (f : Frame),
    s.line.reception = some r → s.line.slot = none → judge r = some f → s.line.ownEcho = false →
    f.source = s.store.station →
    ∃ t, exec .receptionEnd s = .next t
      ∧ (s.member.state = .fault →
          t = { s with line := { s.line with reception := none, ownEcho := false, idleGap := max s.line.idleGap 3 } })
      ∧ (s.member.state ≠ .fault →
          t = { s with
            line := { s.line with reception := none, ownEcho := false, idleGap := max s.line.idleGap 3
                                  transmitter := .silent }
            member := { s.member with state := .fault, cause := .duplicate }
            share := { s.share with ask := { s.share.ask with state := .none, owner := none, grantedBefore := false } }
            demand := { s.demand with
              requests := [], lastResults := endedBy .parked s.demand.requests s.demand.lastResults }
            outputs := { s.outputs with channels := t.outputs.channels }
            port := { s.port with
              flags := if s.demand.requests = [] then s.port.flags ||| Event.membership.mask
                else s.port.flags ||| Event.membership.mask ||| Event.result.mask } }
          ∧ (∀ c : Chan, t.outputs.channels.get c
              = { s.outputs.channels.get c with committed := 0, applied := 0, gate := none, output := false })
          ∧ (queueInOrder s = true → ∀ q ∈ s.demand.requests,
              t.demand.lastResults.get q.channel = { tag := q.tag, code := .parked })
          ∧ (∀ c : Chan, (∀ q ∈ s.demand.requests, q.channel ≠ c) →
              t.demand.lastResults.get c = s.demand.lastResults.get c)
          ∧ flagSet .membership t = true)

/-- The bytes of a frame stand in the layout of Tables 11-1 and 11-2 (R162), with the CRC-16 of R163 taken bit by bit, and
every frame that R4 accepts is read back whole from them. -/
def Obligations.FrameBytesAreReadBack : Prop :=
  (∀ f : Frame, f.wellFormed = true → judge f.heard = some f)
  ∧ (∀ f : Frame, f.wellFormed = true →
      (let bit := fun b : Bool => if b then 1 else 0
       let check := (crc16 ((f.bytes.drop 1).take (f.bytes.length - 3))).toNat
       f.bytes.map BitVec.toNat = match f with
         | .claim n q c =>
           [0xB6, 0x10 + n.toNat, q.toNat,
            128 * bit c.ask.isSome + 64 * bit c.joining + 32 * bit c.isolated + 16 * bit c.hold + 8 * bit c.shortfall
              + c.priority.toNat,
            c.held % 256, c.held / 256, c.floor % 256, c.floor / 256, c.heard.toNat % 256, c.heard.toNat / 256,
            c.digest.toNat % 256, c.digest.toNat / 256, c.code.toNat % 256, c.code.toNat / 256]
           ++ (match c.ask with
             | none => []
             | some a => [a.amount % 256, a.amount / 256, 16 * a.priority.toNat + a.tag.toNat])
           ++ [check / 256, check % 256]
         | .leave n q code =>
           [0xB6, 0x20 + n.toNat, q.toNat, code.toNat % 256, code.toNat / 256, check / 256, check % 256]))
  ∧ crc16 [] = 0xFFFF
  ∧ (∀ (bytes : List Byte) (b : Byte),
      (let enter := fun (c : Half) (i : Nat) =>
         if c.getLsbD 15 = b.getLsbD i then c <<< 1 else (c <<< 1) ^^^ 0x1021
       crc16 (bytes ++ [b]) = [7, 6, 5, 4, 3, 2, 1, 0].foldl enter (crc16 bytes)))

/-! ### The round close -/

/-- A round close at the line interface, the peer table and the share engine (R7, R8, R34, R43), and what it leaves of the
channels, the ask record, SHED and RESULT: they change where it isolates the station (R75, R89, R121, R123), where the entry
to MEMBER grants heads (R86, R92, R106), and where the head expires (R108, R113). An emptied ask record keeps its amount
and priority (the model's, log 15). -/
def Obligations.RoundCloseOpensTheNextRound : Prop :=
  (∀ (order : CloseOrder) (s : State), s.line.idle = true →
    ∃ t, exec (.roundClose order) s = .next t
      ∧ t.line = { s.line with
          attempts := 0, sentThisRound := false, idleGap := 0, activityLeft := 0, deferralExpired := false
          lineWatch := 0 }
      ∧ t.share = { s.share with
          snapshot := t.share.snapshot, own := s.share.own.map (fun o => { o with completed := false })
          ask := t.share.ask, flight := some 0 }
      ∧ t.share.snapshot.own = s.share.own
      ∧ t.share.snapshot.ownCompleted = s.share.own.any (fun o => o.completed)
      ∧ (∀ n, Sixteen.get t.peers n = { Sixteen.get t.share.snapshot.rows n with received := false }
          ∧ (Sixteen.get t.share.snapshot.rows n).received = (Sixteen.get s.peers n).received)
      ∧ t.store = s.store ∧ t.config = s.config ∧ t.sense = s.sense ∧ t.phase = s.phase
      ∧ t.freeIndex = s.freeIndex ∧ t.pending = s.pending
      ∧ t.port = { s.port with flags := t.port.flags }
      ∧ flagSet .peer t = (flagSet .peer s
          || decide (∃ n, (Sixteen.get t.share.snapshot.rows n).state ≠ (Sixteen.get s.peers n).state))
      ∧ (∀ e : Event, (e = .trip ∨ e = .hold ∨ e = .shortfall ∨ e = .line ∨ e = .store) → flagSet e t = flagSet e s))
  ∧ (∀ (order : CloseOrder) (s : State), s.line.idle = true → noExpiryWaits s = true → 0 < s.config.isolation →
      (order = .apart → leavesNoExpiry s.pending = true) →
      ∃ t, exec (.roundClose order) s = .next t
        ∧ flagSet .result t = (flagSet .result s || decide (t.demand.requests.length < s.demand.requests.length))
        ∧ (s.member.state = .member → t.member.state = .isolated →
            (∀ c : Chan, t.outputs.channels.get c = afterCut s.config.floor s.outputs.channels c)
            ∧ t.outputs.running = s.outputs.running
            ∧ t.share.ask = { s.share.ask with state := .none, owner := none, grantedBefore := false }
            ∧ flagSet .shed t = (flagSet .shed s || decide (s.config.floor < committedTotal s.outputs.channels)))
        ∧ ((s.member.state ≠ .member ∨ t.member.state ≠ .isolated) →
            t.share.ask = s.share.ask ∧ flagSet .shed t = flagSet .shed s)
        ∧ ((s.member.state = .member ∨ t.member.state ≠ .member) →
            (s.member.state ≠ .member ∨ t.member.state ≠ .isolated) → t.outputs = s.outputs)
        ∧ (s.member.state ≠ .member → t.member.state = .member →
            ∃ u, HeadsGranted { s with
                line := t.line, peers := t.peers, share := t.share, member := t.member
                port := { s.port with
                  flags := (if ∃ n, (Sixteen.get t.share.snapshot.rows n).state ≠ (Sixteen.get s.peers n).state
                    then s.port.flags ||| Event.peer.mask else s.port.flags) ||| Event.membership.mask } } u
              ∧ (order ≠ .stateFirst → t = u)
              ∧ (order = .stateFirst → t = match u.demand.requests with
                  | [] => u
                  | r :: rest =>
                    if s.config.askLimit = 0 ∨ min (r.age + 1) 255 < s.config.askLimit then
                      { u with demand := { u.demand with requests := { r with age := min (r.age + 1) 255 } :: rest } }
                    else { u with
                      demand := { u.demand with
                        requests := rest
                        lastResults := u.demand.lastResults.set r.channel { tag := r.tag, code := .expired } }
                      port := { u.port with flags := u.port.flags ||| Event.result.mask } })))

/-- How a row ages at a round close (R24, R32, R33); a row that LEASE_EXPIRY or RETIRE_EXPIRY has aged already is the
model's (log 4). -/
def Obligations.RowsAgeAtARoundClose : Prop :=
  ∀ (order : CloseOrder) (s : State) (n : Station), s.line.idle = true → (Sixteen.get s.peers n).agedAhead = false →
    ∃ t, exec (.roundClose order) s = .next t
      ∧ (let old := Sixteen.get s.peers n
         let new := Sixteen.get t.share.snapshot.rows n
         new = { old with state := new.state, missed := new.missed, silentRounds := new.silentRounds }
         ∧ ((old.state = .absent ∨ old.state = .retired ∨ (old.state = .live ∧ old.received = true)) → new = old)
         ∧ (old.state = .live → old.received = false →
             new.missed = old.missed + 1
             ∧ (old.missed + 1 < s.config.lease → new.state = .live ∧ new.silentRounds = old.silentRounds)
             ∧ (s.config.lease ≤ old.missed + 1 →
                 new.state = .silent ∧ new.silentRounds = 0 ∧ flagSet .peer t = true))
         ∧ (old.state = .silent →
             new.silentRounds = old.silentRounds + 1 ∧ new.missed = old.missed
             ∧ (old.silentRounds + 1 < s.config.retire → new.state = .silent)
             ∧ (s.config.retire ≤ old.silentRounds + 1 → new.state = .retired ∧ flagSet .peer t = true)))

/-- The count that a round close moves, and where it takes the station (R83 to R86, R88, R89, R92, R99); the head's age and
EXPIRED in either order (R108); and the same with an expiry left to its own row, which must stand right behind the close
in the queue (the model's choice, log 3), or, for the entry to ISOLATED, behind the close's completion (R75, R89, R123). -/
def Obligations.RoundCloseMovesTheStationsCount : Prop :=
  (∀ (order : CloseOrder) (s : State), s.line.idle = true →
    (order = .apart → leavesNoExpiry s.pending = true) →
    ∃ t, exec (.roundClose order) s = .next t
      ∧ (s.member.state = .listen → s.member.listenCount ≤ s.config.lease →
          t.member = if s.member.listenCount = s.config.lease
            then { s.member with state := .joining, listenCount := s.config.lease + 1, joinCount := 0 }
            else { s.member with listenCount := s.member.listenCount + 1 })
      ∧ (s.member.state = .joining → s.member.joinCount < 2 →
          (let view := fun n => Sixteen.get t.share.snapshot.rows n
           let counts := (∀ n, (view n).takesPart = false)
             ∨ ((∃ n, (view n).takesPart = true ∧ (view n).received = true)
                 ∧ ∀ n, (view n).takesPart = true → (view n).received = true →
                   (view n).heard.getLsbD s.store.station.toNat = true)
           (counts → s.member.joinCount = 0 → t.member = { s.member with joinCount := 1 })
           ∧ (counts → s.member.joinCount = 1 →
               t.member = { s.member with state := .member, joinCount := 2, isolationCount := 0 })
           ∧ (¬counts → t.member = { s.member with joinCount := 0 })))
      ∧ (s.member.state = .member → s.member.isolationCount < s.config.isolation →
          (let view := fun n => Sixteen.get t.share.snapshot.rows n
           let unheard := (∃ n, (view n).state = .live ∨ (view n).state = .silent)
             ∧ ¬∃ n, (view n).takesPart = true ∧ (view n).received = true
                 ∧ (view n).heard.getLsbD s.store.station.toNat = true
           (¬unheard → t.member = { s.member with isolationCount := 0 })
           ∧ (unheard → s.member.isolationCount + 1 < s.config.isolation →
               t.member = { s.member with isolationCount := s.member.isolationCount + 1 })
           ∧ (unheard → s.member.isolationCount + 1 = s.config.isolation →
               t.member = { s.member with state := .isolated, isolationCount := s.config.isolation }
               ∧ committedTotal t.outputs.channels ≤ s.config.floor ∧ t.share.ask.state = .none)))
      ∧ (s.member.state = .isolated → 0 < s.config.isolation →
          (let view := fun n => Sixteen.get t.share.snapshot.rows n
           ((∀ n, (view n).state = .absent) → t.member = { s.member with state := .member, isolationCount := 0 }
             ∧ (noExpiryWaits s = true → order ≠ .stateFirst → ∃ flags,
                 HeadsGranted { s with line := t.line, peers := t.peers, share := t.share, member := t.member
                                       port := { s.port with flags := flags } } t))
           ∧ ((∃ n, (view n).state ≠ .absent) → t.member = s.member)))
      ∧ ((s.member.state = .start ∨ s.member.state = .parking ∨ s.member.state = .parked ∨ s.member.state = .fault) →
          t.member = s.member)
      ∧ (noExpiryWaits s = true → 0 < s.config.isolation →
          noExpiryWaits t = true
          ∧ flagSet .membership t = (flagSet .membership s || decide (t.member.state ≠ s.member.state))))
  ∧ (∀ (order : CloseOrder) (s : State), s.line.idle = true → noExpiryWaits s = true → 0 < s.config.isolation →
      (order = .apart → leavesNoExpiry s.pending = true) →
      ∃ t, exec (.roundClose order) s = .next t
        ∧ (s.demand.requests = [] → t.demand = s.demand)
        ∧ ∀ r rest, s.demand.requests = r :: rest →
            (s.member.state ≠ .member → t.member.state = .member →
              announcedBound s < neededTotal s.outputs.channels r.channel r.target) →
            (let ages := if order = .stateFirst then t.member.state = .member else s.member.state = .member
             let age := if ages then min (r.age + 1) 255 else r.age
             ((s.config.askLimit = 0 ∨ age < s.config.askLimit) →
                t.demand = { s.demand with requests := { r with age := age } :: rest })
             ∧ (0 < s.config.askLimit → s.config.askLimit ≤ age →
                t.demand = { s.demand with
                  requests := rest
                  lastResults := s.demand.lastResults.set r.channel { tag := r.tag, code := .expired } }
                ∧ flagSet .result t = true)))
  ∧ (∀ (s : State) (row : Instr) (rest : List Instr), s.line.idle = true → noExpiryWaits s = true →
      0 < s.config.isolation → isExpiryRow row = true → s.pending = row :: rest →
      leavesNoExpiry rest = true →
      ∃ t, exec (.roundClose .apart) s = .next t ∧ exec row t = exec (.roundClose .ageFirst) s)
  ∧ (∀ (s : State) (rest : List Instr), s.line.idle = true → s.member.state = .member →
      s.member.isolationCount < s.config.isolation →
      (∀ r, s.demand.requests.head? = some r → s.config.askLimit = 0 ∨ r.age < s.config.askLimit) →
      s.pending = .isolationCountExpiry :: .askLimitExpiry :: rest →
      ∃ t, exec (.roundClose .apart) s = .next t
        ∧ t.member = { s.member with isolationCount := t.member.isolationCount }
        ∧ (t.member.isolationCount = 0 ∨ t.member.isolationCount = s.member.isolationCount + 1)
        ∧ t.demand = { s.demand with requests := match s.demand.requests with
            | [] => []
            | r :: rest => { r with age := min (r.age + 1) 255 } :: rest }
        ∧ t.outputs = s.outputs ∧ t.share.ask = s.share.ask
        ∧ flagSet .shed t = flagSet .shed s ∧ flagSet .result t = flagSet .result s)
  ∧ (∀ (s : State) (rest : List Instr), s.line.idle = true → s.member.state = .member →
      s.member.isolationCount < s.config.isolation →
      (∀ r, s.demand.requests.head? = some r → s.config.askLimit = 0 ∨ r.age < s.config.askLimit) →
      s.pending = .shareComputationCompletion :: .isolationCountExpiry :: rest →
      ∃ t u v, exec (.roundClose .apart) s = .next t ∧ exec .shareComputationCompletion t = .next u
        ∧ exec .isolationCountExpiry u = .next v
        ∧ t.member = { s.member with isolationCount := t.member.isolationCount }
        ∧ (t.member.isolationCount = 0 ∨ t.member.isolationCount = s.member.isolationCount + 1)
        ∧ t.share.ask = s.share.ask ∧ t.outputs = s.outputs ∧ t.share.flight = some 0 ∧ u.member = t.member
        ∧ flagSet .shed t = flagSet .shed s
        ∧ (t.member.isolationCount = s.config.isolation →
            v.member.state = .isolated ∧ v.share.ask.state = .none ∧ v.demand = u.demand
            ∧ ∀ c : Chan, v.outputs.channels.get c = afterCut s.config.floor u.outputs.channels c)
        ∧ (t.member.isolationCount < s.config.isolation → v = u))
  ∧ (∀ (s : State) (rest : List Instr), s.line.idle = true → s.member.state = .joining → s.member.joinCount < 2 →
      (∀ r, s.demand.requests.head? = some r → s.config.askLimit = 0 ∨ r.age < s.config.askLimit) →
      s.pending = .joinCountExpiry :: rest →
      ∃ t, exec (.roundClose .apart) s = .next t
        ∧ t.member = { s.member with joinCount := t.member.joinCount }
        ∧ (t.member.joinCount = 0 ∨ t.member.joinCount = s.member.joinCount + 1)
        ∧ t.demand = s.demand ∧ t.outputs = s.outputs ∧ t.share.ask = s.share.ask
        ∧ flagSet .shed t = flagSet .shed s ∧ flagSet .result t = flagSet .result s)
  ∧ (∀ (s : State) (rest : List Instr), s.line.idle = true → s.member.state = .listen →
      s.member.listenCount ≤ s.config.lease →
      (∀ r, s.demand.requests.head? = some r → s.config.askLimit = 0 ∨ r.age < s.config.askLimit) →
      s.pending = .listenCountExpiry :: rest →
      ∃ t, exec (.roundClose .apart) s = .next t
        ∧ t.member = { s.member with listenCount := s.member.listenCount + 1 }
        ∧ t.demand = s.demand ∧ t.outputs = s.outputs ∧ t.share.ask = s.share.ask
        ∧ flagSet .shed t = flagSet .shed s ∧ flagSet .result t = flagSet .result s)

/-- The expiries of the listen count, the join count and the ask limit as rows of their own (R83, R84, R86, R108). -/
def Obligations.ReachedCountsTakeEffect : Prop :=
  (∀ s : State, s.member.state = .listen → s.config.lease + 1 ≤ s.member.listenCount →
    exec .listenCountExpiry s = .next { s with
      member := { s.member with state := .joining, joinCount := 0 }
      port := { s.port with flags := s.port.flags ||| Event.membership.mask } })
  ∧ (∀ s : State, s.member.state = .joining → 2 ≤ s.member.joinCount →
      ∃ t, exec .joinCountExpiry s = .next t
        ∧ t = { s with
            member := { s.member with state := .member, isolationCount := 0 }
            demand := t.demand
            outputs := { s.outputs with channels := t.outputs.channels }
            port := { s.port with flags := t.port.flags } }
        ∧ flagSet .membership t = true
        ∧ appliedTotal t.outputs.channels = appliedTotal s.outputs.channels
        ∧ HeadsGranted { s with
            member := t.member, port := { s.port with flags := s.port.flags ||| Event.membership.mask } } t
        ∧ (s.demand.requests = [] → t.outputs = s.outputs ∧ t.demand = s.demand))
  ∧ (∀ (s : State) (r : Request) (rest : List Request), s.demand.requests = r :: rest → 0 < s.config.askLimit →
      s.config.askLimit ≤ r.age →
      exec .askLimitExpiry s = .next { s with
        demand := { s.demand with
          requests := rest, lastResults := s.demand.lastResults.set r.channel { tag := r.tag, code := .expired } }
        port := { s.port with flags := s.port.flags ||| Event.result.mask } })

/-- The isolation count's expiry (R89, R123, R121): the levels are cut to the floor in cut order and the ask is off the
record, which keeps its amount and priority (the model's, log 15). -/
def Obligations.IsolationCutsToTheFloor : Prop :=
  ∀ s : State, s.member.state = .member → s.config.isolation ≤ s.member.isolationCount →
    ∃ t, exec .isolationCountExpiry s = .next t
      ∧ t = { s with
          member := { s.member with state := .isolated }
          share := { s.share with ask := { s.share.ask with state := .none, owner := none, grantedBefore := false } }
          outputs := { s.outputs with channels := t.outputs.channels }
          port := { s.port with
            flags := if committedTotal s.outputs.channels ≤ s.config.floor
              then s.port.flags ||| Event.membership.mask
              else s.port.flags ||| Event.membership.mask ||| Event.shed.mask } }
      ∧ committedTotal t.outputs.channels = min (committedTotal s.outputs.channels) s.config.floor
      ∧ (∀ c : Chan, t.outputs.channels.get c = afterCut s.config.floor s.outputs.channels c)
      ∧ (∀ c : Chan, (t.outputs.channels.get c).applied = (s.outputs.channels.get c).applied
          ∧ (t.outputs.channels.get c).committed ≤ (s.outputs.channels.get c).committed
          ∧ (t.outputs.channels.get c).priority = (s.outputs.channels.get c).priority
          ∧ (t.outputs.channels.get c).tripped = (s.outputs.channels.get c).tripped)

/-- LEASE_EXPIRY and RETIRE_EXPIRY age their row at once (R32, R33) where the close that ages it stands next (log 4). -/
def Obligations.LeaseAndRetireExpiryAgeTheirRow : Prop :=
  (∀ (s : State) (n : Station) (rows rest : List Instr) (order : CloseOrder), s.line.idle = true →
    s.pending = rows ++ .roundClose order :: rest → (∀ c ∈ rows, isAgingRow c = true) →
    (Sixteen.get s.peers n).state = .live → (Sixteen.get s.peers n).received = false →
    (Sixteen.get s.peers n).agedAhead = false → s.config.lease ≤ (Sixteen.get s.peers n).missed + 1 →
    exec (.leaseExpiry n) s = .next { s with
      peers := Sixteen.set s.peers n { Sixteen.get s.peers n with
        state := .silent, missed := (Sixteen.get s.peers n).missed + 1, silentRounds := 0, agedAhead := true }
      port := { s.port with flags := s.port.flags ||| Event.peer.mask } })
  ∧ (∀ (s : State) (n : Station) (rows rest : List Instr) (order : CloseOrder), s.line.idle = true →
      s.pending = rows ++ .roundClose order :: rest → (∀ c ∈ rows, isAgingRow c = true) →
      (Sixteen.get s.peers n).state = .silent → (Sixteen.get s.peers n).agedAhead = false →
      s.config.retire ≤ (Sixteen.get s.peers n).silentRounds + 1 →
      exec (.retireExpiry n) s = .next { s with
        peers := Sixteen.set s.peers n { Sixteen.get s.peers n with
          state := .retired, silentRounds := (Sixteen.get s.peers n).silentRounds + 1, agedAhead := true }
        port := { s.port with flags := s.port.flags ||| Event.peer.mask } })

/-- An expiry row taken ahead of its round close leaves that close as it was (the model's choice, log 4). -/
def Obligations.ExpiryRowsAheadOfACloseChangeNothing : Prop :=
  ∀ (order : CloseOrder) (s t : State) (n : Station) (c : Instr),
    (c = .leaseExpiry n ∨ c = .retireExpiry n) → s.line.idle = true → exec c s = .next t →
    exec (.roundClose order) t = exec (.roundClose order) s

/-! ### The share computation -/

/-- The counted value of a row (R37). -/
def Obligations.CountedValueFollowsTheRowState : Prop :=
  ∀ r : Row,
    ((r.state = .live ∨ r.state = .silent) → r.counted = max r.held r.floor)
    ∧ (r.state = .retired → r.counted = r.floor)
    ∧ (r.state = .absent → r.counted = 0)
    ∧ (∀ mismatch joining : Bool, { r with mismatch := mismatch, joining := joining }.counted = r.counted)
    ∧ (r.state = .live → r.held = 0 → r.counted = r.floor)
    ∧ (∀ (v : Snapshot) (n : Station), Sixteen.get v.rows n = r → r.state ≠ .absent →
        floorTotal v = floorTotal { v with rows := Sixteen.set v.rows n Row.cleared } + r.floor)

/-- The digest runs over eight bytes for each entry, in ascending order of station number (R164, with R60 and R61). -/
def Obligations.DigestRunsOverEightByteEntries : Prop :=
  (∀ (n : Station) (code held floor ask : Nat), code < 256 → held < 65536 → floor < 65536 → ask < 65536 →
    (digestEntry n code held floor ask).map BitVec.toNat
      = [n.toNat, code, held % 256, held / 256, floor % 256, floor / 256, ask % 256, ask / 256])
  ∧ (∀ (station : Station) (v : Snapshot),
      viewDigest station v = crc16 (stationNumbers.flatMap fun n => rowDigest v.rows n ++ ownDigest station v.own n)
      ∧ ∀ n,
          (let r := Sixteen.get v.rows n
           let ask := if r.state = .live ∧ r.joining = false ∧ r.mismatch = false ∧ r.hold = false
             then (match r.ask with | some a => a.amount | none => 0) else 0
           rowDigest v.rows n = match r.state with
             | .absent => []
             | .live => digestEntry n 1 r.held r.floor ask
             | .silent => digestEntry n 2 r.held r.floor ask
             | .retired => digestEntry n 3 r.held r.floor ask)
          ∧ ownDigest station v.own n = match v.own with
              | none => []
              | some o => if n = station then digestEntry n 1 o.body.held o.body.floor
                  (match o.body.ask with | some a => a.amount | none => 0) else [])
  ∧ stationNumbers.map BitVec.toNat = List.range 16

/-- The results that a completion puts in place: totals, hold, the shortfall record, the own grant, view agreement and the
digests (R46, R48 to R59, R62, R71), and the attempt that waited for it (R12), the first one after a REJOIN
included (R168), but in JOINING none from before the REJOIN (R10, R19, R84; log 24). A completion that hands no shed target
and commits nothing (R72, R73) leaves the channels and the queue. -/
def Obligations.CompletionReplacesTheResults : Prop :=
  ∀ s : State, s.share.flight.isSome = true →
    ∃ t, exec .shareComputationCompletion s = .next t
      ∧ t.share.flight = none ∧ t.share.snapshot = s.share.snapshot ∧ t.share.own = s.share.own
      ∧ t.share.compare = s.share.carried ∧ t.share.carried = viewDigest s.store.station s.share.snapshot
      ∧ t.share.result.total = ((Sixteen.toList s.share.snapshot.rows).map Row.counted).sum
          + ownCounted s.share.snapshot.own
      ∧ t.share.result.floors = floorTotal s.share.snapshot
      ∧ t.share.result.capacity = s.config.budget - s.config.reserve
      ∧ t.share.result.excess = t.share.result.total - t.share.result.capacity
      ∧ t.share.result.headroom = t.share.result.capacity - t.share.result.total
      ∧ (t.share.hold = true ↔
          (∃ n, (Sixteen.get s.share.snapshot.rows n).state = .live
            ∧ (Sixteen.get s.share.snapshot.rows n).mismatch = true)
          ∨ t.share.result.capacity < t.share.result.floors)
      ∧ (t.share.shortfall.mark = true ↔ t.share.result.capacity < t.share.result.total)
      ∧ (t.share.shortfall.mark = false →
          t.share.shortfall.share = 0 ∧ t.share.shortfall.residual = false)
      ∧ (t.share.shortfall.share = 0 → t.share.result.shedTarget = 0)
      ∧ (t.share.shortfall.mark = true → t.share.result.granted = false)
      ∧ (t.share.shortfall.mark = true →
          t.share.shortfall.share = (match s.share.snapshot.own with
            | none => 0
            | some o => min (o.body.held - o.body.floor)
                (t.share.result.excess - surplusAhead s.store.station s.share.snapshot.rows o.body))
          ∧ (t.share.shortfall.residual = true ↔
              ((Sixteen.toList s.share.snapshot.rows).map shedSurplus).sum
                + (match s.share.snapshot.own with | none => 0 | some o => o.body.held - o.body.floor)
              < t.share.result.excess))
      ∧ (t.share.result.granted = true ↔ t.share.shortfall.mark = false
          ∧ ∃ o a, s.share.snapshot.own = some o ∧ o.body.ask = some a
            ∧ askedAhead s.store.station s.share.snapshot.rows a + a.amount ≤ t.share.result.headroom)
      ∧ (∀ o a, s.share.snapshot.own = some o → o.body.ask = some a →
          t.share.result.grantTag = a.tag ∧ t.share.result.grantAmount = a.amount)
      ∧ (t.share.result.agreement = true ↔ ∀ n,
          (Sixteen.get s.share.snapshot.rows n).state = .live →
          (Sixteen.get s.share.snapshot.rows n).joining = false →
          (Sixteen.get s.share.snapshot.rows n).mismatch = false →
          (Sixteen.get s.share.snapshot.rows n).received = true
          ∧ (Sixteen.get s.share.snapshot.rows n).digest = t.share.compare)
      ∧ (flagSet .hold t = true ↔ flagSet .hold s = true ∨ t.share.hold ≠ s.share.hold)
      ∧ (flagSet .shortfall t = true ↔ flagSet .shortfall s = true
          ∨ t.share.shortfall.mark ≠ s.share.shortfall.mark ∨ t.share.shortfall.residual ≠ s.share.shortfall.residual)
      ∧ t.port = { s.port with flags := t.port.flags }
      ∧ (t.share.shortfall.share = 0 → flagSet .shed t = flagSet .shed s)
      ∧ (let commits := s.share.ask.state ≠ .none
           ∧ (∃ o a, s.share.snapshot.own = some o ∧ o.body.ask = some a
               ∧ a.tag = s.share.ask.tag ∧ a.amount = s.share.ask.amount)
           ∧ t.share.result.granted = true ∧ t.share.hold = false ∧ t.share.shortfall.mark = false
           ∧ s.share.ask.grantedBefore = true ∧ s.share.snapshot.ownCompleted = true
           ∧ t.share.result.agreement = true
         t.share.shortfall.share = 0 → ¬commits → t.outputs = s.outputs ∧ t.demand = s.demand)
      ∧ (t.demand = s.demand → flagSet .result t = flagSet .result s)
      ∧ (∀ e : Event, (e = .trip ∨ e = .membership ∨ e = .peer ∨ e = .line ∨ e = .store) → flagSet e t = flagSet e s)
      ∧ t.peers = s.peers ∧ t.member = s.member ∧ t.store = s.store ∧ t.config = s.config ∧ t.sense = s.sense
      ∧ t.phase = s.phase ∧ t.pending = s.pending
      ∧ ((s.line.deferralExpired = false ∨ (s.member.state = .joining ∧ s.line.awaitsExpiry = true)) → t.line = s.line)
      ∧ (s.line.deferralExpired = true → s.line.idle = true →
          (s.member.state = .joining ∨ s.member.state = .member ∨ s.member.state = .isolated
            ∨ s.member.state = .parking) → s.line.sentThisRound = false → s.line.attempts < 3 →
          s.line.transmitter = .idle → (s.member.state ≠ .joining ∨ s.line.awaitsExpiry = false) →
          ∃ f, t.line.transmitter = .sending f)

/-- The own ask decision (R72, R73); a record that becomes NONE keeps its amount and priority (the model's, log 15). A
completion that finds a held deferral expiry is the completion without it and then the attempt (R12), whose build meets
the record as the decision left it (R69), the first one after a REJOIN included (R168); in JOINING an expiry held since
before the REJOIN begins none (R10, R19, R84; log 24). -/
def Obligations.OwnAskDecisionMovesTheAskRecord : Prop :=
  (∀ s : State, s.share.flight.isSome = true → s.line.deferralExpired = false →
     ∃ t, exec .shareComputationCompletion s = .next t
       ∧ (let fits := ∃ o a, s.share.snapshot.own = some o ∧ o.body.ask = some a ∧ t.share.result.granted = true
            ∧ a.tag = s.share.ask.tag ∧ a.amount = s.share.ask.amount ∧ t.share.hold = false
            ∧ t.share.shortfall.mark = false
          let second := s.share.ask.grantedBefore = true ∧ s.share.snapshot.ownCompleted = true
            ∧ t.share.result.agreement = true
          (s.share.ask.state = .none → t.share.ask = s.share.ask)
          ∧ (s.share.ask.state ≠ .none → fits → second →
              t.share.ask = { s.share.ask with state := .none, owner := none, grantedBefore := false })
          ∧ (s.share.ask.state ≠ .none → fits → ¬second →
              t.share.ask = { s.share.ask with state := .tentative, grantedBefore := true })
          ∧ (s.share.ask.state ≠ .none → ¬fits →
              t.share.ask = { s.share.ask with state := .waiting, grantedBefore := false })))
  ∧ (∀ s : State, s.share.flight.isSome = true →
      ∃ t u, exec .shareComputationCompletion s = .next t
        ∧ exec .shareComputationCompletion { s with line := { s.line with deferralExpired := false } } = .next u
        ∧ (let waits := s.member.state = .joining ∧ s.line.awaitsExpiry = true
           let begins := s.line.deferralExpired = true ∧ ¬waits ∧ s.line.idle = true
             ∧ (s.member.state = .joining ∨ s.member.state = .member ∨ s.member.state = .isolated
                 ∨ s.member.state = .parking) ∧ s.line.sentThisRound = false ∧ s.line.attempts < 3
             ∧ s.line.transmitter = .idle
           (begins → exec .deferralExpiry u = .next { t with line := { t.line with activityLeft := 0 } })
           ∧ (¬begins → t = { u with line := s.line })))

/-- A commit raises the head's channel, gated at the level it held, and ends the request GRANTED (R73, R107, R119); where
the owner is no longer the head the notice is dropped, and no level and no result changes (R74, R107). -/
def Obligations.CommitRaisesTheHeadGated : Prop :=
  ∀ (s : State) (o : OwnRecord) (a : Ask) (w : Owner),
    s.share.flight.isSome = true → s.share.ask.state ≠ .none → s.share.ask.owner = some w →
    s.share.ask.grantedBefore = true → s.share.snapshot.ownCompleted = true →
    s.share.snapshot.own = some o → o.body.ask = some a → a.tag = s.share.ask.tag → a.amount = s.share.ask.amount →
    ownGranted s.store.station s.share.snapshot s.config.capacity = true →
    findsHold s.share.snapshot s.config.capacity = false →
    viewAgreement s.share.snapshot s.share.carried = true →
    (∀ r rest, s.demand.requests = r :: rest → r.arrival = w.arrival →
      ∃ t, exec .shareComputationCompletion s = .next t
        ∧ t.outputs.channels = s.outputs.channels.set r.channel
            { s.outputs.channels.get r.channel with
              committed := r.target, priority := r.priority
              gate := some (s.outputs.channels.get r.channel).committed }
        ∧ t.outputs.running = s.outputs.running
        ∧ t.demand = { s.demand with
            requests := rest, lastResults := s.demand.lastResults.set r.channel { tag := r.tag, code := .granted } }
        ∧ flagSet .result t = true)
    ∧ ((∀ r, s.demand.requests.head? = some r → r.arrival ≠ w.arrival) →
      ∃ t, exec .shareComputationCompletion s = .next t
        ∧ t.outputs = s.outputs ∧ t.demand = s.demand ∧ flagSet .result t = flagSet .result s
        ∧ (s.line.deferralExpired = false → t.share.ask.state = .none))

/-- A shed target cuts the committed total down to held_tx − S, in cut order (R59, R121, R122). -/
def Obligations.ShedTargetCutsTheCommittedTotal : Prop :=
  ∀ (s : State) (o : OwnRecord), s.share.flight.isSome = true → s.share.snapshot.own = some o →
    0 < (findsShortfall s.store.station s.share.snapshot s.config.capacity).share →
    ∃ t, exec .shareComputationCompletion s = .next t
      ∧ t.share.result.shedTarget = o.body.held - t.share.shortfall.share
      ∧ 0 < t.share.shortfall.share ∧ t.share.shortfall.share ≤ o.body.held - o.body.floor
      ∧ committedTotal t.outputs.channels = min (committedTotal s.outputs.channels) t.share.result.shedTarget
      ∧ (∀ c : Chan, t.outputs.channels.get c = afterCut t.share.result.shedTarget s.outputs.channels c)
      ∧ t.outputs.running = s.outputs.running
      ∧ (∀ c : Chan, (t.outputs.channels.get c).applied = (s.outputs.channels.get c).applied
          ∧ (t.outputs.channels.get c).committed ≤ (s.outputs.channels.get c).committed)
      ∧ (flagSet .shed t = true ↔ flagSet .shed s = true
          ∨ t.share.result.shedTarget < committedTotal s.outputs.channels)
      ∧ t.demand = s.demand

/-- A line-watch expiry (R9, R21, R83, R86, R89, R123, R75). That the ask record keeps its amount and priority when it becomes
NONE is the model's (log 15). -/
def Obligations.LineWatchExpiryReachesTheStation : Prop :=
  ∀ s : State, s.line.active = true →
    ∃ t, exec .lineWatchExpiry s = .next t
      ∧ (s.member.state ≠ .member → t = { s with
          line := { s.line with lineWatch := 0, reason := .stuck }
          member := match s.member.state with
            | .listen => { s.member with listenCount := 0 }
            | .joining => { s.member with joinCount := 0 }
            | .start | .member | .isolated | .parking | .parked | .fault => s.member
          port := { s.port with flags := s.port.flags ||| Event.line.mask } })
      ∧ (s.member.state = .member →
          t = { s with
            line := { s.line with lineWatch := 0, reason := .stuck }
            member := { s.member with state := .isolated }
            share := { s.share with ask := { s.share.ask with state := .none, owner := none, grantedBefore := false } }
            outputs := { s.outputs with channels := t.outputs.channels }
            port := { s.port with
              flags := if committedTotal s.outputs.channels ≤ s.config.floor
                then s.port.flags ||| Event.line.mask ||| Event.membership.mask
                else s.port.flags ||| Event.line.mask ||| Event.membership.mask ||| Event.shed.mask } }
          ∧ committedTotal t.outputs.channels = min (committedTotal s.outputs.channels) s.config.floor
          ∧ ∀ c : Chan, t.outputs.channels.get c = afterCut s.config.floor s.outputs.channels c)

/-! ### Sending -/

/-- An attempt begins at a deferral expiry with the frame that is due, built from that instant (R10, R11, R13, R20, R66,
R67, R70), the first one after a REJOIN included (R168). Where none is due the expiry is kept, and one that a computation
holds begins its attempt at the completion, where it finds none in flight (R12, R168). -/
def Obligations.DeferralExpiryBuildsTheDueFrame : Prop :=
  (∀ s : State, s.line.idle = true → s.line.deferralExpired = false →
     (s.member.state = .joining ∨ s.member.state = .member ∨ s.member.state = .isolated ∨ s.member.state = .parking) →
     s.line.sentThisRound = false → s.line.attempts < 3 → s.line.transmitter = .idle → s.share.flight = none →
     ∃ t, exec .deferralExpiry s = .next t
       ∧ t = { s with
           line := { s.line with
             transmitter := t.line.transmitter, sentBits := 0, idleGap := 0, activityLeft := 0, deferralExpired := false
             awaitsExpiry := false
             sequence := if s.line.attempts = 0 then s.line.sequence + 1 else s.line.sequence }
           share := { s.share with ask := t.share.ask } }
       ∧ ((s.member.state = .parking ∧ appliedTotal s.outputs.channels = 0) →
           t.line.transmitter = .sending (.leave s.store.station t.line.sequence s.config.circuitCode)
           ∧ t.share = s.share)
       ∧ (¬(s.member.state = .parking ∧ appliedTotal s.outputs.channels = 0) →
           ∃ b : ClaimBody, t.line.transmitter = .sending (.claim s.store.station t.line.sequence b)
             ∧ b.held = max (appliedTotal s.outputs.channels) (committedTotal s.outputs.channels)
             ∧ b.floor = s.config.floor
             ∧ (b.joining = true ↔ s.member.state = .joining) ∧ (b.isolated = true ↔ s.member.state = .isolated)
             ∧ b.hold = s.share.hold ∧ b.shortfall = s.share.shortfall.mark
             ∧ b.digest = s.share.carried ∧ b.code = s.config.circuitCode
             ∧ (∀ n : Station, b.heard.getLsbD n.toNat = true ↔
                 (Sixteen.get s.share.snapshot.rows n).received = true
                 ∨ n = s.store.station ∧ s.share.snapshot.ownCompleted = true)
             ∧ (∀ c : Chan, 0 < (s.outputs.channels.get c).committed → b.priority ≤ (s.outputs.channels.get c).priority)
             ∧ ((∃ c : Chan, 0 < (s.outputs.channels.get c).committed) →
                 ∃ c : Chan, 0 < (s.outputs.channels.get c).committed
                   ∧ b.priority = (s.outputs.channels.get c).priority)
             ∧ ((∀ c : Chan, (s.outputs.channels.get c).committed = 0) → b.priority = 0)
             ∧ (t.share.ask.state = .none → b.ask = none)
             ∧ (t.share.ask.state ≠ .none → b.ask
                 = some { amount := t.share.ask.amount, priority := t.share.ask.priority, tag := t.share.ask.tag })))
  ∧ (∀ s : State, s.line.idle = true → s.line.deferralExpired = false →
       ((s.member.state = .start ∨ s.member.state = .listen ∨ s.member.state = .parked ∨ s.member.state = .fault)
         ∨ s.line.sentThisRound = true ∨ 3 ≤ s.line.attempts
         ∨ s.line.transmitter ≠ .idle ∨ s.share.flight.isSome = true) →
       exec .deferralExpiry s = .next { s with
         line := { s.line with
           deferralExpired := true, awaitsExpiry := false, activityLeft := 0
           idleGap := max s.line.idleGap (12 + 4 * s.store.station.toNat) } })
  ∧ (∀ s : State, s.line.idle = true → s.line.deferralExpired = false →
       (s.member.state = .joining ∨ s.member.state = .member ∨ s.member.state = .isolated ∨ s.member.state = .parking) →
       s.line.sentThisRound = false → s.line.attempts < 3 → s.line.transmitter = .idle → s.share.flight.isSome = true →
       ∃ t u, exec .deferralExpiry s = .next t ∧ exec .shareComputationCompletion t = .next u
         ∧ t.line.transmitter = .idle ∧ ∃ f, u.line.transmitter = .sending f)

/-- How a CLAIM build brings the ask record into line (R68, R69). -/
def Obligations.ClaimBuildAlignsTheAskRecord : Prop :=
  ∀ s : State, s.line.idle = true → s.line.deferralExpired = false →
    (s.member.state = .joining ∨ s.member.state = .member ∨ s.member.state = .isolated ∨ s.member.state = .parking) →
    s.line.sentThisRound = false → s.line.attempts < 3 → s.line.transmitter = .idle → s.share.flight = none →
    ¬(s.member.state = .parking ∧ appliedTotal s.outputs.channels = 0) →
    ∃ t, exec .deferralExpiry s = .next t
      ∧ (let announced := max (max (appliedTotal s.outputs.channels) (committedTotal s.outputs.channels)) s.config.floor
         let none' := { s.share.ask with state := .none, owner := none, grantedBefore := false }
         ((s.member.state ≠ .member ∨ s.share.hold = true ∨ s.demand.requests = []) → t.share.ask = none')
         ∧ (s.member.state = .member → s.share.hold = false → ∀ r rest, s.demand.requests = r :: rest →
             (let needed := committedTotal s.outputs.channels - (s.outputs.channels.get r.channel).committed + r.target
              (needed ≤ announced → t.share.ask = none')
              ∧ (announced < needed →
                  (let same := s.share.ask.state ≠ .none ∧ s.share.ask.amount = needed - announced
                     ∧ s.share.ask.owner = some { arrival := r.arrival, channel := r.channel }
                   (same → t.share.ask = s.share.ask)
                   ∧ (¬same → t.share.ask
                       = { state := .waiting, tag := s.share.ask.tag + 1, amount := needed - announced
                           priority := r.priority, owner := some { arrival := r.arrival, channel := r.channel }
                           grantedBefore := false }))))))

/-- A collision (R14, R15, R21). -/
def Obligations.CollisionFailsTheAttempt : Prop :=
  ∀ (s : State) (f : Frame), s.line.transmitter = .sending f →
    exec .collision s = .next { s with
      line := { s.line with
        transmitter := .idle, attempts := s.line.attempts + 1, sentBits := 0
        reason := if s.line.attempts + 1 = 3 then .collisions else s.line.reason }
      port := { s.port with flags := if s.line.attempts + 1 = 3 then s.port.flags ||| Event.line.mask
                                     else s.port.flags } }

/-- Transmit complete of a CLAIM and of a LEAVE (R16, R64, R95, R120). -/
def Obligations.CompletedFrameBecomesTheRecord : Prop :=
  (∀ (s : State) (n : Station) (q : Byte) (b : ClaimBody), s.line.transmitter = .sending (.claim n q b) →
    ∃ t, exec .transmitComplete s = .next t
      ∧ t = { s with
          line := { s.line with
            transmitter := .idle, sentThisRound := true, sentBits := 0, idleGap := 0, deferralExpired := false
            ownEcho := true }
          share := { s.share with own := some { body := b, sequence := q, completed := true } }
          demand := t.demand
          outputs := { s.outputs with channels := t.outputs.channels }
          port := { s.port with flags := t.port.flags } }
      ∧ (∀ c : Chan, (t.outputs.channels.get c).gate = none
          ∧ (t.outputs.channels.get c).applied = (s.outputs.channels.get c).applied)
      ∧ (s.demand.requests = [] → t.demand = s.demand ∧ t.port = s.port
          ∧ ∀ c : Chan, t.outputs.channels.get c = { s.outputs.channels.get c with gate := none }))
  ∧ (∀ (s : State) (n : Station) (q : Byte) (code : Half),
      s.line.transmitter = .sending (.leave n q code) → s.member.state = .parking →
      exec .transmitComplete s = .next { s with
        line := { s.line with
          transmitter := .idle, sentThisRound := true, sentBits := 0, idleGap := 0, deferralExpired := false
          ownEcho := true }
        share := { s.share with own := none }
        member := { s.member with state := .parked }
        port := { s.port with flags := s.port.flags ||| Event.membership.mask } })

/-- The head re-check at a transmit complete grants the heads that fit what the frame announces (R106), with one request
in the queue and with any. -/
def Obligations.CompletionGrantsAHeadThatFits : Prop :=
  (∀ (s : State) (n : Station) (q : Byte) (b : ClaimBody) (r : Request),
     s.line.transmitter = .sending (.claim n q b) → s.demand.requests = [r] →
     ∃ t, exec .transmitComplete s = .next t
       ∧ ((s.member.state = .member ∧ s.share.hold = false ∧ s.share.shortfall.mark = false
             ∧ committedTotal s.outputs.channels - (s.outputs.channels.get r.channel).committed + r.target
                 ≤ (if b.joining then b.held else max b.held b.floor)) →
           t.demand = { s.demand with
               requests := [], lastResults := s.demand.lastResults.set r.channel { tag := r.tag, code := .done } }
           ∧ t.outputs.channels.get r.channel = { s.outputs.channels.get r.channel with
               committed := r.target, priority := r.priority, gate := none }
           ∧ flagSet .result t = true)
       ∧ (¬(s.member.state = .member ∧ s.share.hold = false ∧ s.share.shortfall.mark = false
             ∧ committedTotal s.outputs.channels - (s.outputs.channels.get r.channel).committed + r.target
                 ≤ (if b.joining then b.held else max b.held b.floor)) →
           t.demand = s.demand
           ∧ t.outputs.channels.get r.channel = { s.outputs.channels.get r.channel with gate := none }))
  ∧ (∀ (s : State) (n : Station) (q : Byte) (b : ClaimBody), s.line.transmitter = .sending (.claim n q b) →
      ∃ t u, exec .transmitComplete s = .next t ∧ HeadsGranted u t
        ∧ u = { s with
            line := { s.line with
              transmitter := .idle, sentThisRound := true, sentBits := 0, idleGap := 0, deferralExpired := false
              ownEcho := true }
            share := { s.share with own := some { body := b, sequence := q, completed := true } }
            outputs := { s.outputs with channels := u.outputs.channels } }
        ∧ ∀ c : Chan, u.outputs.channels.get c = { s.outputs.channels.get c with gate := none })

/-! ### Outputs and sense -/

/-- A period start (R117, R118, R131). -/
def Obligations.PeriodStartAppliesTheLevels : Prop :=
  ∀ s : State, s.outputs.running = true → noTripWaits s = true →
    ∃ t, exec .periodStart s = .next t
      ∧ t = { s with
          outputs := { s.outputs with channels := t.outputs.channels }
          sense := { s.sense with passBegun := false, channels := t.sense.channels } }
      ∧ ∀ c : Chan,
          (let ch := s.outputs.channels.get c
           let level := if ch.tripped then 0 else match ch.gate with
             | none => ch.committed
             | some g => min ch.committed g
           let count := 256 * level / (s.config.entries.get c).rating
           t.outputs.channels.get c = { ch with applied := level, onCount := count, output := decide (0 < count) }
           ∧ t.sense.channels.get c = { s.sense.channels.get c with reference := level })

/-- The end of an on count, and the beginning of a conversion pass (R118, R131). -/
def Obligations.WithinThePeriodOutputsFallAndThePassBegins : Prop :=
  (∀ (s : State) (c : Chan), s.outputs.running = true → 1 ≤ (s.outputs.channels.get c).onCount →
    (s.outputs.channels.get c).onCount ≤ 255 →
    exec (.onCountEnd c) s = .next { s with
      outputs := { s.outputs with
        channels := s.outputs.channels.set c { s.outputs.channels.get c with output := false } } })
  ∧ (∀ s : State, s.outputs.running = true → noTripWaits s = true → s.sense.converter = .idle →
      s.sense.passBegun = false →
      exec .conversionPass s = .next { s with sense := { s.sense with converter := .converting 0, passBegun := true } })

/-- A conversion's result (R131 to R135). Where it asks for no trip the next conversion begins at once; where it does and
its TRIP_REQUEST is the very next command, the next conversion has not begun yet (the model's choice, log 5); where it does
otherwise, the trip is taken with the result, as that row would take it, which the next statement says (R125, R134). -/
def Obligations.ConversionIsScaledAndCounted : Prop :=
  ∀ (s : State) (c : Chan) (raw : BitVec 10), s.sense.converter = .converting c → noTripWaits s = true →
    (let old := s.sense.channels.get c
     let difference : Int := (raw.toNat : Int) - old.offset.toInt
     let corrected := if difference < 0 then 0 else if 1023 < difference then 1023 else difference.toNat
     let measured := corrected * (s.config.entries.get c).scale / 1024
     let overdraw := raw.toNat = 1023 ∨ old.reference + (s.config.entries.get c).tolerance < measured
     let count := if (s.outputs.channels.get c).tripped then old.overdrawCount
       else if overdraw then old.overdrawCount + 1 else 0
     let asks := s.outputs.running = true ∧ (s.outputs.channels.get c).tripped = false ∧ s.config.tripCount ≤ count
     let converted := fun (v : Converter) => { s with
       sense := { s.sense with
         converter := v
         channels := s.sense.channels.set c { old with
           raw := raw.toNat, measured := measured, overdraw := decide overdraw, overdrawCount := count } } }
     (¬asks → ∀ trip, exec (.conversionComplete raw trip) s
       = .next (converted (if c = 3 then .idle else .converting (c + 1))))
     ∧ (asks → s.pending.head? = some (.tripRequest c) →
         exec (.conversionComplete raw .apart) s = .next (converted (.tripping c)))
     ∧ (asks → ∀ trip, (trip = .atOnce ∨ s.pending.head? ≠ some (.tripRequest c)) →
         exec (.conversionComplete raw trip) s = exec (.tripRequest c) (converted (.tripping c))))

/-- A trip with its head re-check (R125, R110, R134, R106), asked for by its own row or with the conversion that brings the
count to K: nothing stands between the two, and the pass goes on only then (R131). That a TRIP_REQUEST next in the queue
may take it is the model's choice (log 5). -/
def Obligations.TripDrivesTheChannelToZero : Prop :=
  (∀ (s : State) (c : Chan), s.outputs.running = true → (s.outputs.channels.get c).tripped = false →
    s.config.tripCount ≤ (s.sense.channels.get c).overdrawCount →
    ∃ t, exec (.tripRequest c) s = .next t
      ∧ t = { s with
          demand := t.demand
          outputs := { s.outputs with channels := t.outputs.channels }
          sense := { s.sense with
            converter := if s.sense.converter = .tripping c then (if c = 3 then .idle else .converting (c + 1))
              else s.sense.converter }
          port := { s.port with flags := t.port.flags } }
      ∧ t.outputs.channels.get c = { s.outputs.channels.get c with
          committed := 0, applied := 0, gate := none, output := false, tripped := true }
      ∧ (∀ d : Chan, d ≠ c → (t.outputs.channels.get d).applied = (s.outputs.channels.get d).applied
          ∧ (t.outputs.channels.get d).tripped = (s.outputs.channels.get d).tripped)
      ∧ flagSet .trip t = true
      ∧ (∀ r ∈ t.demand.requests, r.channel ≠ c ∧ r ∈ s.demand.requests)
      ∧ (∀ r, s.demand.requests.find? (fun q => decide (q.channel = c)) = some r →
          t.demand.lastResults.get c = { tag := r.tag, code := .tripped } ∧ flagSet .result t = true)
      ∧ (let ended := s.demand.requests.find? (fun q => decide (q.channel = c))
         HeadsGranted { s with
           demand := { s.demand with
             requests := s.demand.requests.filter (fun q => decide (q.channel ≠ c))
             lastResults := match ended with
               | none => s.demand.lastResults
               | some r => s.demand.lastResults.set c { tag := r.tag, code := .tripped } }
           outputs := { s.outputs with
             channels := s.outputs.channels.set c { s.outputs.channels.get c with
               committed := 0, applied := 0, gate := none, output := false, tripped := true } }
           sense := t.sense
           port := { s.port with
             flags := if ended = none then s.port.flags ||| Event.trip.mask
               else s.port.flags ||| Event.trip.mask ||| Event.result.mask } } t))
  ∧ (∀ (s : State) (c : Chan) (raw : BitVec 10), s.sense.converter = .converting c →
      s.pending.head? = some (.tripRequest c) →
      exec (.conversionComplete raw .atOnce) s
        = (match exec (.conversionComplete raw .apart) s with
          | .next t => exec (.tripRequest c) t
          | .fault r => .fault r
          | .refused r => .refused r))
  ∧ (∀ (s : State) (c : Chan) (raw : BitVec 10), s.sense.converter = .converting c →
      s.pending.head? ≠ some (.tripRequest c) →
      exec (.conversionComplete raw .apart) s = exec (.conversionComplete raw .atOnce) s)
  ∧ (∀ (s : State) (c : Chan) (raw : BitVec 10), s.sense.converter = .converting c → s.outputs.running = true →
      noTripWaits s = true →
      ∃ t, exec (.conversionComplete raw .atOnce) s = .next t ∧ noTripWaits t = true)
  ∧ (∀ s t0 t1 t2 t3 : State, exec (.tripRequest 0) s = .next t0 → exec (.tripRequest 1) t0 = .next t1 →
      exec (.tripRequest 2) t1 = .next t2 → exec (.tripRequest 3) t2 = .next t3 →
      (s.outputs.running = true → exec .periodStart s = exec .periodStart t3)
      ∧ (∀ c raw trip, s.sense.converter = .converting c →
          exec (.conversionComplete raw trip) s = exec (.conversionComplete raw trip) t3))

/-! ### Commands -/

/-- The three checks of SUBMIT in their order (R102). -/
def Obligations.SubmitIsCheckedInOrder : Prop :=
  ∀ s : State, s.port.link = .writing 0x1D →
    (let answered := fun code : CmdResult =>
       { s with port := { s.port with link := .writing 0x1E, latch := none, cmd := 1, cmdResult := code } }
     let c : Chan := s.port.paramSelect.setWidth 2
     let outOfRange := 3 < s.port.paramSelect.toNat ∨ (s.config.entries.get c).max < s.port.paramTarget.toNat
       ∨ 7 < s.port.paramPriority.toNat
     let closed := s.member.state = .start ∨ s.member.state = .parking ∨ s.member.state = .parked
       ∨ s.member.state = .fault
     (outOfRange → exec .submit s = .next (answered .refusedRange))
     ∧ (¬outOfRange → (s.outputs.channels.get c).tripped = true → exec .submit s = .next (answered .refusedTripped))
     ∧ (¬outOfRange → (s.outputs.channels.get c).tripped = false → closed →
         exec .submit s = .next (answered .refusedState))
     ∧ (¬outOfRange → (s.outputs.channels.get c).tripped = false → ¬closed →
         ∃ t, exec .submit s = .next t ∧ t.port.cmdResult = .accepted ∧ t.port.cmd = 1))

/-- A SUBMIT at or below the committed level lowers it at once, and one below it calls for a head re-check (R103, R116, R120,
R106). -/
def Obligations.SubmitAtOrBelowTheLevelIsADecrease : Prop :=
  ∀ s : State, s.port.link = .writing 0x1D → submitRefusal s = none →
    s.port.paramTarget.toNat ≤ (s.outputs.channels.get (s.port.paramSelect.setWidth 2)).committed →
    (let c : Chan := s.port.paramSelect.setWidth 2
     let target := s.port.paramTarget.toNat
     let ch := s.outputs.channels.get c
     ∃ t, exec .submit s = .next t
       ∧ t = { s with
           demand := t.demand
           outputs := { s.outputs with channels := t.outputs.channels }
           port := { s.port with link := .writing 0x1E, latch := none, cmd := 1, cmdResult := .accepted
                                 flags := t.port.flags } }
       ∧ t.outputs.channels.get c = { ch with
           committed := target, cut := false
           priority := if 0 < target then s.port.paramPriority.setWidth 3 else ch.priority
           gate := match ch.gate with
             | none => none
             | some g => if target ≤ g then none else some g }
       ∧ t.demand.lastResults.get c = { tag := s.port.paramTag, code := .done }
       ∧ flagSet .result t = true
       ∧ (∀ r ∈ t.demand.requests, r.channel ≠ c ∧ r ∈ s.demand.requests)
       ∧ (target = ch.committed →
           t.demand = { s.demand with
             requests := s.demand.requests.filter (fun r => decide (r.channel ≠ c))
             lastResults := s.demand.lastResults.set c { tag := s.port.paramTag, code := .done } }
           ∧ t.port.flags = s.port.flags ||| Event.result.mask
           ∧ ∀ d : Chan, d ≠ c → t.outputs.channels.get d = s.outputs.channels.get d)
       ∧ (target < ch.committed → HeadsGranted { s with
           demand := { s.demand with
             requests := s.demand.requests.filter (fun r => decide (r.channel ≠ c))
             lastResults := s.demand.lastResults.set c { tag := s.port.paramTag, code := .done } }
           outputs := { s.outputs with
             channels := s.outputs.channels.set c { ch with
               committed := target, cut := false
               priority := if 0 < target then s.port.paramPriority.setWidth 3 else ch.priority
               gate := match ch.gate with
                 | none => none
                 | some g => if target ≤ g then none else some g } }
           port := { s.port with link := .writing 0x1E, latch := none, cmd := 1, cmdResult := .accepted
                                 flags := s.port.flags ||| Event.result.mask } } t))

/-- A SUBMIT above the level is a local grant within the announced bound, and queued otherwise; the request it replaces
ends SUPERSEDED (R103 to R105, R112, R86). The count of arrivals that a queued one advances is the model's (log 16). -/
def Obligations.SubmitAboveTheLevelIsGrantedOrQueued : Prop :=
  ∀ s : State, s.port.link = .writing 0x1D → submitRefusal s = none →
    (s.outputs.channels.get (s.port.paramSelect.setWidth 2)).committed < s.port.paramTarget.toNat →
    (let c : Chan := s.port.paramSelect.setWidth 2
     let target := s.port.paramTarget.toNat
     let ch := s.outputs.channels.get c
     let record := match s.share.own with
       | none => 0
       | some o => if o.body.joining then o.body.held else max o.body.held o.body.floor
     let bound := match s.line.transmitter with
       | .sending (.claim _ _ b) => min record (if b.joining then b.held else max b.held b.floor)
       | _ => record
     let fits := s.member.state = .member ∧ s.share.hold = false ∧ s.share.shortfall.mark = false
       ∧ committedTotal s.outputs.channels - ch.committed + target ≤ bound
     let rest := s.demand.requests.filter (fun r => decide (r.channel ≠ c))
     ∃ t, exec .submit s = .next t
       ∧ t = { s with
           demand := t.demand
           outputs := { s.outputs with channels := t.outputs.channels }
           port := { s.port with link := .writing 0x1E, latch := none, cmd := 1, cmdResult := .accepted
                                 flags := t.port.flags } }
       ∧ t.port.flags = (if fits ∨ ∃ r ∈ s.demand.requests, r.channel = c then s.port.flags ||| Event.result.mask
           else s.port.flags)
       ∧ (∀ d : Chan, d ≠ c → t.outputs.channels.get d = s.outputs.channels.get d
           ∧ t.demand.lastResults.get d = s.demand.lastResults.get d)
       ∧ (fits →
           t.outputs.channels.get c = { ch with committed := target, cut := false
                                                priority := s.port.paramPriority.setWidth 3 }
           ∧ t.demand = { s.demand with
               requests := rest, lastResults := s.demand.lastResults.set c { tag := s.port.paramTag, code := .done } }
           ∧ flagSet .result t = true)
       ∧ (¬fits →
           t.outputs.channels.get c = { ch with cut := false }
           ∧ t.demand = { s.demand with
               requests := t.demand.requests, nextArrival := s.demand.nextArrival + 1
               lastResults := match s.demand.requests.find? (fun r => decide (r.channel = c)) with
                 | none => s.demand.lastResults
                 | some r => s.demand.lastResults.set c { tag := r.tag, code := .superseded } }
           ∧ ((∃ r ∈ s.demand.requests, r.channel = c) → flagSet .result t = true)
           ∧ ∃ before after, t.demand.requests = before
               ++ { channel := c, target := target, priority := s.port.paramPriority.setWidth 3
                    tag := s.port.paramTag, age := 0, arrival := s.demand.nextArrival } :: after
             ∧ rest = before ++ after
             ∧ (∀ r ∈ before, s.port.paramPriority.setWidth 3 ≤ r.priority)
             ∧ (queueInOrder s = true → ∀ r ∈ after, r.priority < s.port.paramPriority.setWidth 3)))

/-- WITHDRAW (R109), and CLEAR (R126, R135). -/
def Obligations.WithdrawAndClearActOnTheirChannel : Prop :=
  (∀ s : State, s.port.link = .writing 0x1D →
     (let answered := fun (code : CmdResult) =>
        { s with port := { s.port with link := .writing 0x1E, latch := none, cmd := 2, cmdResult := code } }
      let c : Chan := s.port.paramSelect.setWidth 2
      (3 < s.port.paramSelect.toNat → exec .withdraw s = .next (answered .refusedRange))
      ∧ (s.port.paramSelect.toNat ≤ 3 → (∀ r ∈ s.demand.requests, r.channel ≠ c) →
          exec .withdraw s = .next (answered .refusedState))
      ∧ (s.port.paramSelect.toNat ≤ 3 → ∀ r,
          s.demand.requests.find? (fun q => decide (q.channel = c)) = some r →
          exec .withdraw s = .next { answered .accepted with
            demand := { s.demand with
              requests := s.demand.requests.filter (fun q => decide (q.channel ≠ c))
              lastResults := s.demand.lastResults.set c { tag := r.tag, code := .withdrawn } }
            port := { (answered .accepted).port with flags := s.port.flags ||| Event.result.mask } })))
  ∧ (∀ s : State, s.port.link = .writing 0x1D →
       (let answered := fun (code : CmdResult) =>
          { s with port := { s.port with link := .writing 0x1E, latch := none, cmd := 3, cmdResult := code } }
        let c : Chan := s.port.paramSelect.setWidth 2
        (3 < s.port.paramSelect.toNat → exec .clear s = .next (answered .refusedRange))
        ∧ (s.port.paramSelect.toNat ≤ 3 → (s.outputs.channels.get c).tripped = false →
            exec .clear s = .next (answered .refusedState))
        ∧ (s.port.paramSelect.toNat ≤ 3 → (s.outputs.channels.get c).tripped = true →
            exec .clear s = .next { answered .accepted with
              outputs := { s.outputs with
                channels := s.outputs.channels.set c
                  { s.outputs.channels.get c with committed := 0, applied := 0, tripped := false } }
              sense := { s.sense with
                channels := s.sense.channels.set c { s.sense.channels.get c with overdrawCount := 0 } } })))

/-- FORGET (R36), and the empty-table notice it may give, with its head re-check (R31, R92, R106). -/
def Obligations.ForgetEmptiesARetiredRow : Prop :=
  ∀ s : State, s.port.link = .writing 0x1D →
    (let answered := fun (code : CmdResult) =>
       { s with port := { s.port with link := .writing 0x1E, latch := none, cmd := 4, cmdResult := code } }
     let n : Station := s.port.paramSelect.setWidth 4
     (15 < s.port.paramSelect.toNat → exec .forget s = .next (answered .refusedRange))
     ∧ (s.port.paramSelect.toNat ≤ 15 → (Sixteen.get s.peers n).state ≠ .retired →
         exec .forget s = .next (answered .refusedState))
     ∧ (s.port.paramSelect.toNat ≤ 15 → (Sixteen.get s.peers n).state = .retired →
         ∃ t, exec .forget s = .next t ∧ t.port.cmdResult = .accepted
           ∧ t.peers = Sixteen.set s.peers n Row.cleared ∧ flagSet .peer t = true
           ∧ ((s.member.state ≠ .isolated ∨ ∃ m, m ≠ n ∧ (Sixteen.get s.peers m).state ≠ .absent) →
               t = { answered .accepted with
                 peers := t.peers
                 port := { (answered .accepted).port with flags := s.port.flags ||| Event.peer.mask } })
           ∧ (s.member.state = .isolated → (∀ m, m ≠ n → (Sixteen.get s.peers m).state = .absent) →
               t.member = { s.member with state := .member, isolationCount := 0 }
               ∧ flagSet .membership t = true
               ∧ HeadsGranted { answered .accepted with
                   peers := t.peers
                   member := t.member
                   port := { (answered .accepted).port with
                     flags := s.port.flags ||| Event.peer.mask ||| Event.membership.mask } } t)))

/-- PARK (R94, R111, R124, R121) and REJOIN (R96, R84, R168). That the ask record keeps its amount and priority when it
becomes NONE is the model's (log 15). -/
def Obligations.ParkWithdrawsAndRejoinReturns : Prop :=
  (∀ s : State, s.port.link = .writing 0x1D →
    ∃ t, exec .park s = .next t
      ∧ t = { s with
          member := t.member
          share := { s.share with ask := t.share.ask }
          demand := { s.demand with requests := t.demand.requests, lastResults := t.demand.lastResults }
          outputs := { s.outputs with channels := t.outputs.channels }
          port := { s.port with link := .writing 0x1E, latch := none, cmd := 5, cmdResult := t.port.cmdResult
                                flags := t.port.flags } }
      ∧ ((s.member.state = .listen ∨ s.member.state = .joining ∨ s.member.state = .member
            ∨ s.member.state = .isolated) →
          (queueInOrder s = true → ∀ q ∈ s.demand.requests,
            t.demand.lastResults.get q.channel = { tag := q.tag, code := .parked })
          ∧ (∀ c : Chan, (∀ q ∈ s.demand.requests, q.channel ≠ c) →
              t.demand.lastResults.get c = s.demand.lastResults.get c)
          ∧ t.demand = { s.demand with
              requests := [], lastResults := endedBy .parked s.demand.requests s.demand.lastResults }
          ∧ (s.demand.requests ≠ [] → flagSet .result t = true)
          ∧ t.port.flags = (if s.demand.requests = [] then s.port.flags ||| Event.membership.mask
              else s.port.flags ||| Event.membership.mask ||| Event.result.mask))
      ∧ (s.member.state = .listen →
          t.port.cmdResult = .accepted ∧ t.member = { s.member with state := .parked } ∧ t.demand.requests = []
          ∧ t.outputs = s.outputs ∧ t.share = s.share ∧ flagSet .membership t = true)
      ∧ ((s.member.state = .joining ∨ s.member.state = .member ∨ s.member.state = .isolated) →
          t.port.cmdResult = .accepted ∧ t.member = { s.member with state := .parking } ∧ t.demand.requests = []
          ∧ t.share.ask = { s.share.ask with state := .none, owner := none, grantedBefore := false }
          ∧ (∀ c : Chan, t.outputs.channels.get c = afterCut 0 s.outputs.channels c)
          ∧ (∀ c : Chan, (t.outputs.channels.get c).committed = 0
              ∧ (t.outputs.channels.get c).applied = (s.outputs.channels.get c).applied
              ∧ (t.outputs.channels.get c).priority = (s.outputs.channels.get c).priority
              ∧ (0 < (s.outputs.channels.get c).committed →
                  (t.outputs.channels.get c).gate = none ∧ (t.outputs.channels.get c).cut = true))
          ∧ flagSet .membership t = true)
      ∧ ((s.member.state = .start ∨ s.member.state = .parking ∨ s.member.state = .parked ∨ s.member.state = .fault) →
          t = { s with port := { s.port with link := .writing 0x1E, latch := none, cmd := 5
                                             cmdResult := .refusedState } }))
  ∧ (∀ s : State, s.port.link = .writing 0x1D →
      (s.member.state = .parked → exec .rejoin s = .next { s with
        member := { s.member with state := .joining, joinCount := 0 }
        store := { s.store with key := .locked }
        line := { s.line with awaitsExpiry := true }
        port := { s.port with link := .writing 0x1E, latch := none, cmd := 6, cmdResult := .accepted
                              flags := s.port.flags ||| Event.membership.mask } })
      ∧ (s.member.state ≠ .parked → exec .rejoin s = .next { s with
          port := { s.port with link := .writing 0x1E, latch := none, cmd := 6, cmdResult := .refusedState } }))

/-- STORE_WRITE's checks in their order, and the write it begins (R146). -/
def Obligations.StoreWriteIsCheckedInOrder : Prop :=
  ∀ s : State, s.port.link = .writing 0x1D →
    (let answered := fun (code : CmdResult) =>
       { s with port := { s.port with link := .writing 0x1E, latch := none, cmd := 7, cmdResult := code } }
     let open' := s.member.state = .parked ∨ s.member.state = .fault
     (s.store.key ≠ .unlocked → exec .storeWrite s = .next (answered .refusedLocked))
     ∧ (s.store.key = .unlocked → ¬open' → exec .storeWrite s = .next (answered .refusedState))
     ∧ (s.store.key = .unlocked → open' → 0xE0 ≤ s.port.storeAddr.toNat →
         exec .storeWrite s = .next (answered .refusedProtected))
     ∧ (s.store.key = .unlocked → open' → s.port.storeAddr.toNat < 0xE0 → s.store.supplyLow = true →
         exec .storeWrite s = .next (answered .refusedLowSupply))
     ∧ (s.store.key = .unlocked → open' → s.port.storeAddr.toNat < 0xE0 → s.store.supplyLow = false →
         s.store.write ≠ none → exec .storeWrite s = .next (answered .refusedBusy))
     ∧ (s.store.key = .unlocked → open' → s.port.storeAddr.toNat < 0xE0 → s.store.supplyLow = false →
         s.store.write = none → exec .storeWrite s = .next { answered .accepted with
           store := { s.store with
             write := some { address := s.port.storeAddr, data := s.port.writeData }
             writeAddress := s.port.storeAddr } }))

/-- RESTART (R150), and a byte that is no command code (R154). -/
def Obligations.RestartAndUnknownCodes : Prop :=
  (∀ s : State, s.port.link = .writing 0x1D →
    (let answered := fun (code : CmdResult) =>
       { s with port := { s.port with link := .writing 0x1E, latch := none, cmd := 8, cmdResult := code } }
     let stopped := s.member.state = .parked ∨ s.member.state = .fault
     (¬stopped → exec .restart s = .next (answered .refusedState))
     ∧ (stopped → s.store.write ≠ none → exec .restart s = .next (answered .refusedBusy))
     ∧ (stopped → s.store.write = none → s.phase.held = false →
         ∃ t, exec .restart s = .next t
           ∧ t = { State.reset with
               phase := t.phase
               store := { State.reset.store with
                 cells := s.store.cells, resetCause := .restart, supplyLow := s.store.supplyLow }
               port := { State.reset.port with link := .ignored }
               freeIndex := s.freeIndex
               pending := s.pending }
           ∧ t.phase.held = true)))
  ∧ (∀ (s : State) (code : Byte), s.port.link = .writing 0x1D → (code = 0 ∨ 8 < code.toNat) →
      exec (.refusedUnknown code) s = .next { s with
        port := { s.port with link := .writing 0x1E, latch := none, cmd := code, cmdResult := .refusedUnknown } })

/-! ### The store -/

/-- The key table (R145), the three ends of a write operation (R138, R147), and the supply mark (R148). -/
def Obligations.KeyWritesAndSupply : Prop :=
  (∀ (s : State) (value : Byte), s.port.link = .writing 0x22 →
     exec (.storeKey value) s = .next { s with
       store := { s.store with
         key := if value = 0x4D#8 ∧ s.store.key ≠ .half then .half
           else if value = 0xB2#8 ∧ s.store.key = .half then .unlocked else .locked }
       port := { s.port with link := .writing 0x23, latch := none } })
  ∧ ((∀ (s : State) (w : WriteOperation), s.store.write = some w →
       (let ended := fun (cells : List Host.Cell) (outcome : WriteOutcome) (low : Bool) =>
          { s with
            store := { s.store with cells := cells, write := none, lastOutcome := outcome, key := .locked, supplyLow := low }
            port := { s.port with flags := s.port.flags ||| Event.store.mask } }
        (∃ cells, exec .writeOperationDone s = .next (ended cells .done s.store.supplyLow)
          ∧ (Memory.wf s.store.cells = true → ∀ a, Memory.read cells a
              = if a = w.address.toNat then w.data else Memory.read s.store.cells a))
        ∧ exec .writeTimeout s = .next (ended s.store.cells .timeout s.store.supplyLow)
        ∧ exec (.supplyLow true) s = .next (ended s.store.cells .lowSupply true)))
     ∧ (∀ s : State, exec (.supplyLow false) s = .next { s with store := { s.store with supplyLow := false } }
         ∧ (s.store.write = none →
             exec (.supplyLow true) s = .next { s with store := { s.store with supplyLow := true } })))

/-! ### The local port -/

/-- Writing RAW_EVENTS clears flags, and writing EN sets enables, each half by its own byte (R158, R159, R160). -/
def Obligations.EventBytesActOnTheirHalf : Prop :=
  ∀ (s : State) (value : Byte) (a : BitVec 7), s.port.link = .writing a →
    ((a = 0x12 ∨ a = 0x13) → ∃ t, exec (.rawEvents value) s = .next t
      ∧ t = { s with port := { s.port with link := .writing (a + 1), latch := none, flags := t.port.flags } }
      ∧ (∀ i, i < 9 → t.port.flags.getLsbD i
          = (s.port.flags.getLsbD i
              && !(if i < 8 then decide (a = 0x12) && value.getLsbD i else decide (a = 0x13) && value.getLsbD 0)))
      ∧ (interruptAsserted t = true ↔ ∃ i, i < 9 ∧ t.port.flags.getLsbD i = true ∧ s.port.enables.getLsbD i = true))
    ∧ ((a = 0x14 ∨ a = 0x15) → ∃ t, exec (.en value) s = .next t
      ∧ t = { s with port := { s.port with link := .writing (a + 1), latch := none, enables := t.port.enables } }
      ∧ (∀ i, i < 9 → t.port.enables.getLsbD i
          = if i < 8 then (if a = 0x14 then value.getLsbD i else s.port.enables.getLsbD i)
            else (if a = 0x15 then value.getLsbD 0 else s.port.enables.getLsbD 8))
      ∧ (interruptAsserted t = true ↔ ∃ i, i < 9 ∧ t.port.flags.getLsbD i = true ∧ t.port.enables.getLsbD i = true))

/-- A byte at an address without a row of its own is stored where the address is writable, and ignored elsewhere (R152,
R155, R156, R157, R167). -/
def Obligations.RegisterBytesAreStoredAtTheirAddress : Prop :=
  ∀ (s : State) (value : Byte) (a : BitVec 7), s.port.link = .writing a →
    (a ≠ 0x12 ∧ a ≠ 0x13 ∧ a ≠ 0x14 ∧ a ≠ 0x15 ∧ a ≠ 0x1D ∧ a ≠ 0x22) →
    exec (.registerWrite value) s = .next { s with
      port := { s.port with
        link := .writing (a + 1), latch := none
        paramSelect := if a = 0x18 then value else s.port.paramSelect
        paramTarget := if a = 0x19 then s.port.paramTarget.extractLsb' 8 8 ++ value
          else if a = 0x1A then value ++ s.port.paramTarget.extractLsb' 0 8 else s.port.paramTarget
        paramPriority := if a = 0x1B then value else s.port.paramPriority
        paramTag := if a = 0x1C then value else s.port.paramTag
        storeAddr := if a = 0x23 then value else s.port.storeAddr
        writeData := if a = 0x24 then value else s.port.writeData
        rowSelect := if a = 0x25 then value.extractLsb' 0 4 else s.port.rowSelect
        channelSelect := if a = 0x26 then value.extractLsb' 0 2 else s.port.channelSelect } }

/-- A captured byte, and the read latch (R152, R153): the latch takes a high byte exactly at the low bytes of the two-byte
fields of Tables 11-7, 11-9 and 11-10. The counter of free values that moves is the model's (log 14). -/
def Obligations.ReadCapturesAByteAndMovesTheLatch : Prop :=
  ∀ (s : State) (a : BitVec 7), s.port.link = .reading a →
    ∃ t, exec .readLatch s = .next t
      ∧ t = { s with
          port := { s.port with
            link := .reading (a + 1), dataOut := t.port.dataOut
            latch := if a ∈ twoByteAddresses then some { address := a + 1, value := windowByte s (a + 1) } else none }
          freeIndex := t.freeIndex }
      ∧ (∀ l, s.port.latch = some l → l.address = a → t.port.dataOut = some l.value)
      ∧ ((s.port.latch = none ∨ ∃ l, s.port.latch = some l ∧ l.address ≠ a) → t.port.dataOut = some (windowByte s a))

/-- What each address of the window presents (R166, R167, R156, Tables 11-7 to 11-10). The priority and tag bits of an ask
that is not there are left out: they are free (log 14). -/
def Obligations.WindowPresentsTheStateByAddress : Prop :=
  ∀ s : State,
    let bit := fun b : Bool => if b then 1 else 0
    let one := fun (a : BitVec 7) (v : Nat) => v < 256 → (windowByte s a).toNat = v
    let two := fun (a : BitVec 7) (v : Nat) => v < 65536 → windowWord s a = v
    -- identity, causes, state, marks and counts
    (windowByte s 0x00 = Memory.read s.store.cells 0xE4 ∧ windowByte s 0x01 = s.store.station ++ s.store.strap
      ∧ one 0x02 (match s.store.resetCause with | .power => 1 | .pin => 2 | .supply => 3 | .restart => 4)
      ∧ one 0x03 (match s.member.cause with
          | .none => 0 | .storeCrc => 1 | .storeFormat => 2 | .valueRange => 3 | .timingConstraint => 4
          | .floorRange => 5 | .duplicate => 6)
      ∧ one 0x04 (match s.member.state with
          | .start => 0 | .listen => 1 | .joining => 2 | .member => 3 | .isolated => 4 | .parking => 5 | .parked => 6
          | .fault => 7)
      ∧ one 0x05 (bit s.share.hold + 2 * bit s.share.shortfall.mark + 4 * bit s.share.shortfall.residual)
      ∧ one 0x06 s.member.listenCount ∧ one 0x07 s.member.joinCount ∧ one 0x08 s.member.isolationCount
      ∧ one 0x09 s.demand.requests.length)
    -- totals and the line
    ∧ (two 0x0A (committedTotal s.outputs.channels) ∧ two 0x0C (appliedTotal s.outputs.channels)
      ∧ one 0x0E (match s.line.reason with | .none => 0 | .collisions => 1 | .stuck => 2)
      ∧ windowByte s 0x0F = s.line.sequence ∧ two 0x10 s.line.discards)
    -- events and commands
    ∧ (windowWord s 0x12 = s.port.flags.toNat ∧ windowWord s 0x14 = s.port.enables.toNat
      ∧ windowWord s 0x16 = (s.port.flags &&& s.port.enables).toNat
      ∧ windowWord s 0x12 = bit (flagSet .result s) + 2 * bit (flagSet .shed s) + 4 * bit (flagSet .trip s)
          + 8 * bit (flagSet .membership s) + 16 * bit (flagSet .hold s) + 32 * bit (flagSet .shortfall s)
          + 64 * bit (flagSet .peer s) + 128 * bit (flagSet .line s) + 256 * bit (flagSet .store s)
      ∧ windowByte s 0x18 = s.port.paramSelect ∧ windowWord s 0x19 = s.port.paramTarget.toNat
      ∧ windowByte s 0x1B = s.port.paramPriority ∧ windowByte s 0x1C = s.port.paramTag ∧ windowByte s 0x1D = s.port.cmd
      ∧ one 0x1E (match s.port.cmdResult with
          | .none => 0 | .accepted => 1 | .refusedRange => 2 | .refusedTripped => 3 | .refusedState => 4
          | .refusedLocked => 5 | .refusedProtected => 6 | .refusedLowSupply => 7 | .refusedBusy => 8
          | .refusedUnknown => 9))
    -- store access and the selects
    ∧ (one 0x20 (bit s.store.write.isSome
          + 2 * (match s.store.lastOutcome with | .none => 0 | .done => 1 | .timeout => 2 | .lowSupply => 3)
          + 8 * (match s.store.key with | .locked => 0 | .half => 1 | .unlocked => 2) + 32 * bit s.store.supplyLow)
      ∧ windowByte s 0x21 = s.store.writeAddress ∧ windowByte s 0x22 = 0 ∧ windowByte s 0x23 = s.port.storeAddr
      ∧ windowByte s 0x24 = Memory.read s.store.cells s.port.storeAddr.toNat
      ∧ one 0x25 s.port.rowSelect.toNat ∧ one 0x26 s.port.channelSelect.toNat)
    -- the round result, the digests and the ask record
    ∧ (two 0x28 s.share.result.total ∧ two 0x2A s.share.result.floors ∧ two 0x2C s.share.result.excess
      ∧ two 0x2E s.share.result.capacity ∧ two 0x30 s.share.result.headroom ∧ two 0x32 s.share.shortfall.share
      ∧ two 0x34 s.share.result.shedTarget ∧ two 0x36 s.share.result.grantAmount
      ∧ one 0x38 (bit s.share.result.granted + 2 * bit s.share.result.agreement + 16 * s.share.result.grantTag.toNat)
      ∧ windowWord s 0x3A = s.share.carried.toNat ∧ windowWord s 0x3C = s.share.compare.toNat
      ∧ one 0x3E ((match s.share.ask.state with | .none => 0 | .waiting => 1 | .tentative => 2)
          + 4 * bit s.share.ask.grantedBefore + 16 * s.share.ask.priority.toNat)
      ∧ one 0x3F (s.share.ask.tag.toNat + (match s.share.ask.owner with | none => 0 | some o => 16 * o.channel.toNat))
      ∧ two 0x40 (if s.share.ask.state = .none then 0 else s.share.ask.amount))
    -- the own record
    ∧ (s.share.own = none → ∀ a : BitVec 7, 0x42 ≤ a.toNat → a.toNat ≤ 0x4F → windowByte s a = 0)
    ∧ (∀ o, s.share.own = some o →
        one 0x42 (1 + 2 * bit o.completed + 8 * bit o.body.joining + 16 * bit o.body.isolated + 32 * bit o.body.hold
          + 64 * bit o.body.shortfall)
        ∧ (windowByte s 0x43).extractLsb' 0 4 = o.body.priority.setWidth 4
        ∧ two 0x44 o.body.held ∧ two 0x46 o.body.floor ∧ windowWord s 0x48 = o.body.heard.toNat
        ∧ windowWord s 0x4A = o.body.digest.toNat ∧ windowByte s 0x4C = o.sequence
        ∧ (o.body.ask = none → windowWord s 0x4E = 0)
        ∧ ∀ k, o.body.ask = some k →
            one 0x43 (o.body.priority.toNat + 16 * k.priority.toNat) ∧ one 0x4D k.tag.toNat ∧ two 0x4E k.amount)
    -- the row that ROW_SELECT names
    ∧ (let r := Sixteen.get s.peers s.port.rowSelect
       (r = Row.cleared → ∀ a : BitVec 7, 0x50 ≤ a.toNat → a.toNat ≤ 0x5F → windowByte s a = 0)
       ∧ one 0x50 ((match r.state with | .absent => 0 | .live => 1 | .silent => 2 | .retired => 3) + 4 * bit r.mismatch
           + 8 * bit r.received + 16 * bit r.joining + 32 * bit r.isolated + 64 * bit r.hold + 128 * bit r.shortfall)
       ∧ (windowByte s 0x51).extractLsb' 0 4 = r.priority.setWidth 4 ∧ windowByte s 0x52 = r.lastSequence
       ∧ one 0x53 r.framesLost ∧ (r.missed < 16 → ((windowByte s 0x54).extractLsb' 0 4).toNat = r.missed)
       ∧ one 0x55 r.silentRounds ∧ two 0x56 r.held ∧ two 0x58 r.floor ∧ windowWord s 0x5A = r.heard.toNat
       ∧ windowWord s 0x5C = r.digest.toNat ∧ (r.ask = none → windowWord s 0x5E = 0)
       ∧ ∀ k, r.ask = some k → two 0x5E k.amount
           ∧ (r.state ≠ .absent → one 0x51 (r.priority.toNat + 16 * k.priority.toNat)
               ∧ one 0x54 (r.missed + 16 * k.tag.toNat)))
    -- the channel that CHANNEL_SELECT names
    ∧ (let c := s.port.channelSelect
       let ch := s.outputs.channels.get c
       let x := s.sense.channels.get c
       one 0x60 (bit ch.tripped + 2 * bit ch.gate.isSome + 4 * bit ch.cut + 8 * bit x.overdraw + 16 * ch.priority.toNat)
       ∧ one 0x61 (match (s.demand.lastResults.get c).code with
           | .none => 0 | .done => 1 | .granted => 2 | .superseded => 3 | .withdrawn => 4 | .expired => 5 | .tripped => 6
           | .parked => 7)
       ∧ windowByte s 0x62 = (s.demand.lastResults.get c).tag
       ∧ two 0x64 ch.committed ∧ two 0x66 ch.applied ∧ two 0x68 (ch.gate.getD 0)
       ∧ two 0x6E x.reference ∧ two 0x70 x.raw ∧ two 0x72 x.measured ∧ one 0x74 x.overdrawCount
       ∧ ((∀ q ∈ s.demand.requests, q.channel ≠ c) →
           ∀ a : BitVec 7, (a = 0x63 ∨ 0x6A ≤ a.toNat ∧ a.toNat ≤ 0x6D) → windowByte s a = 0)
       ∧ ∀ before r after, s.demand.requests = before ++ r :: after → r.channel = c →
           (∀ q ∈ before, q.channel ≠ c) →
           one 0x63 (1 + 2 * before.length + 16 * r.priority.toNat) ∧ two 0x6A r.target ∧ windowByte s 0x6C = r.tag
           ∧ one 0x6D r.age)
    -- unassigned addresses
    ∧ (∀ a : BitVec 7, (a = 0x1F ∨ a = 0x27 ∨ a = 0x39 ∨ 0x75 ≤ a.toNat) → windowByte s a = 0)

/-- The bounds of a transaction and its address byte (R151). -/
def Obligations.TransactionsBeginAndEndWithSelect : Prop :=
  (∀ s : State, s.port.link = .released → s.phase.held = false →
    exec .transactionStart s = .next { s with port := { s.port with link := .awaiting, dataOut := some 0 } })
  ∧ (∀ s : State, s.port.link = .released → s.phase.held = true →
      exec .transactionStart s = .next { s with port := { s.port with link := .ignored } })
  ∧ (∀ (s : State) (value : Byte), s.port.link = .awaiting →
      exec (.addressByte value) s = .next { s with
        port := { s.port with link := if value.getLsbD 7 then .reading (value.extractLsb' 0 7)
                                      else .writing (value.extractLsb' 0 7) } })
  ∧ (∀ s : State, exec .transactionEnd s = .next { s with port := { s.port with link := .released, dataOut := none } })

/-! ### What every step keeps -/

/-- The applied total stays within the bound of the last transmitted CLAIM (R119), with the conditions that keep it. -/
def Obligations.DrawWithinTheAnnouncedBoundIsKept : Prop :=
  ∀ s t : State, drawsWithinBound s = true → step s = .next t →
    drawsWithinBound t = true ∧ appliedTotal t.outputs.channels ≤ recordBound t.share.own

/-- The demand queue stays in its order with one request per channel (R100). -/
def Obligations.QueueOrderIsKept : Prop :=
  ∀ s t : State, queueInOrder s = true → step s = .next t → queueInOrder t = true ∧ t.demand.requests.length ≤ 4

/-- No level passes its channel's max (R115). -/
def Obligations.LevelsWithinMaxAreKept : Prop :=
  ∀ s t : State, levelsWithinMax s = true → step s = .next t → levelsWithinMax t = true

/-- A TRIPPED channel stays at 0 with no queued request (R125). -/
def Obligations.TrippedChannelsStayAtZero : Prop :=
  ∀ s t : State, trippedAtZero s = true → step s = .next t → trippedAtZero t = true

/-- Until start-up ends nothing but the store and the port moves, and the own row stays ABSENT (R23, R149). -/
def Obligations.OwnRowStaysAbsent : Prop :=
  ∀ s t : State, ownRowAbsent s = true → step s = .next t → ownRowAbsent t = true

/-- The store keeps its canonical form, and a byte changes only when a write operation ends DONE (R138). -/
def Obligations.StoreChangesOnlyByAFinishedWrite : Prop :=
  ∀ s t : State, Memory.wf s.store.cells = true → step s = .next t →
    Memory.wf t.store.cells = true
    ∧ (s.pending.head? ≠ some .writeOperationDone → t.store.cells = s.store.cells)

/-- All of them hold at reset. -/
def Obligations.ResetMeetsEveryKeptCondition : Prop :=
  drawsWithinBound State.reset = true ∧ queueInOrder State.reset = true ∧ levelsWithinMax State.reset = true
    ∧ trippedAtZero State.reset = true ∧ ownRowAbsent State.reset = true ∧ Memory.wf State.reset.store.cells = true

end
end

