-- ==== Sys2Proof/Laws/Crc.lean ====
section
/-! SUPPORT. The CRC-16 taken bit by bit: each bit of a byte enters at the top of the register, most significant first. -/

namespace Sys2Proof.Machine

/-- One bit enters the register (R163): it is added to the bit that falls out, and a 1 there subtracts
x^16 + x^12 + x^5 + 1. -/
def crcBit (c : Half) (bit : Bool) : Half := (c <<< 1) ^^^ (if c.msb != bit then 0x1021#16 else 0)

/-- A shift of the register with a byte added on top is one bit entered, with the rest of the byte still added. -/
theorem crcShift_add (c : Half) (b : Byte) :
    crcShift (c ^^^ (b ++ 0#8)) = crcBit c b.msb ^^^ ((b <<< 1) ++ 0#8 : BitVec 16) := by
  have h : (c ^^^ (b ++ 0#8 : BitVec 16)) <<< 1 = (c <<< 1) ^^^ ((b <<< 1) ++ 0#8 : BitVec 16) := by
    apply BitVec.eq_of_getLsbD_eq
    intro i hi
    simp only [BitVec.getLsbD_shiftLeft, BitVec.getLsbD_xor, BitVec.getLsbD_append]
    interval_cases i <;> simp
  have m : (c ^^^ (b ++ 0#8 : BitVec 16)).msb = (c.msb != b.msb) := by
    have top : (b ++ 0#8 : BitVec 16).msb = b.msb := by
      rw [BitVec.msb_eq_getLsbD_last, BitVec.msb_eq_getLsbD_last, BitVec.getLsbD_append]
      simp
    rw [BitVec.msb_xor, top]
  unfold crcShift crcBit
  rw [m, h]
  cases c.msb != b.msb
  · simp
  · simp only [if_true]
    rw [BitVec.xor_assoc, BitVec.xor_assoc, BitVec.xor_comm 0x1021#16]

/-- A byte enters most significant bit first (R163). -/
theorem crcByte_bits (c : Half) (b : Byte) :
    crcByte c b = [7, 6, 5, 4, 3, 2, 1, 0].foldl (fun x i => crcBit x (b.getLsbD i)) c := by
  have bits : ∀ i, i < 8 → (b <<< i).msb = b.getLsbD (7 - i) := by
    intro i hi
    interval_cases i <;> simp [BitVec.msb_eq_getLsbD_last]
  have next : ∀ i : Nat, ((b <<< i : Byte) <<< (1 : Nat) : Byte) = b <<< (i + 1) := fun i => by rw [BitVec.shiftLeft_add]
  have step := fun (x : Half) (i : Nat) => crcShift_add x (b <<< i : Byte)
  have z : b <<< 8 ++ 0#8 = (0#16 : BitVec 16) := by
    rw [BitVec.shiftLeft_eq_zero (by omega)]; rfl
  simp only [next] at step
  have s0 := step c 0
  rw [show b <<< 0 = b by simp] at s0
  unfold crcByte
  rw [s0, step, step, step, step, step, step, step, z, BitVec.xor_zero]
  simp only [List.foldl_cons, List.foldl_nil, Nat.zero_add, Nat.reduceAdd, bits 1 (by omega), bits 2 (by omega),
    bits 3 (by omega), bits 4 (by omega), bits 5 (by omega), bits 6 (by omega), bits 7 (by omega)]
  rfl

/-- The CRC of no bytes, and of one byte more. -/
theorem crc16_nil : crc16 [] = 0xFFFF#16 := rfl

theorem crc16_snoc (bytes : List Byte) (b : Byte) : crc16 (bytes ++ [b]) = crcByte (crc16 bytes) b := by
  simp [crc16]

end Sys2Proof.Machine
end

