-- ==== Sys2Proof/Laws/Four.lean ====
section
/-! SUPPORT. Getting and setting one of four and one of sixteen like things. -/

namespace Sys2Proof.Machine

/-- A channel number is one of four. -/
theorem chan_cases (i : Chan) : i = 0 ∨ i = 1 ∨ i = 2 ∨ i = 3 := by revert i; decide

@[simp] theorem Four.get_set_same {α : Type} (x : Four α) (i : Chan) (a : α) : (x.set i a).get i = a := by
  rcases chan_cases i with rfl | rfl | rfl | rfl <;> rfl

theorem Four.get_set_other {α : Type} (x : Four α) (i j : Chan) (a : α) (h : j ≠ i) : (x.set i a).get j = x.get j := by
  rcases chan_cases i with rfl | rfl | rfl | rfl <;> rcases chan_cases j with rfl | rfl | rfl | rfl <;>
    first | rfl | exact absurd rfl h

@[simp] theorem Four.get_map {α β : Type} (f : α → β) (x : Four α) (i : Chan) : (x.map f).get i = f (x.get i) := by
  rcases chan_cases i with rfl | rfl | rfl | rfl <;> rfl

@[simp] theorem Four.get_same {α : Type} (a : α) (i : Chan) : (Four.same a).get i = a := by
  rcases chan_cases i with rfl | rfl | rfl | rfl <;> rfl

@[simp] theorem Four.get_zipWith {α β γ : Type} (f : α → β → γ) (x : Four α) (y : Four β) (i : Chan) :
    (Four.zipWith f x y).get i = f (x.get i) (y.get i) := by
  rcases chan_cases i with rfl | rfl | rfl | rfl <;> rfl

@[simp] theorem Four.set_get {α : Type} (x : Four α) (i : Chan) : x.set i (x.get i) = x := by
  rcases chan_cases i with rfl | rfl | rfl | rfl <;> rfl

/-- Two fours are equal when they agree at every place. -/
theorem Four.ext_get {α : Type} (x y : Four α) (h : ∀ i, x.get i = y.get i) : x = y := by
  obtain ⟨a, b, c, d⟩ := x
  obtain ⟨a', b', c', d'⟩ := y
  have h0 := h 0
  have h1 := h 1
  have h2 := h 2
  have h3 := h 3
  simp only [Four.get] at h0 h1 h2 h3
  simp_all

/-- A property of all four in order is a property at every place. -/
theorem Four.all_toList {α : Type} (x : Four α) (p : α → Bool) : x.toList.all p = true ↔ ∀ i, p (x.get i) = true := by
  constructor
  · intro h i
    simp only [Four.toList, List.all_cons, List.all_nil, Bool.and_true, Bool.and_eq_true] at h
    rcases chan_cases i with rfl | rfl | rfl | rfl
    · exact h.1
    · exact h.2.1
    · exact h.2.2.1
    · exact h.2.2.2
  · intro h
    simp only [Four.toList, List.all_cons, List.all_nil, Bool.and_true, Bool.and_eq_true]
    exact ⟨h 0, h 1, h 2, h 3⟩

/-- A station number is its quarter and its place. -/
theorem station_eq (m n : Station) : m = n ↔ quarter m = quarter n ∧ place m = place n := by revert m n; decide

@[simp] theorem Sixteen.get_set_same {α : Type} (x : Sixteen α) (n : Station) (a : α) :
    Sixteen.get (Sixteen.set x n a) n = a := by simp [Sixteen.get, Sixteen.set]

theorem Sixteen.get_set_other {α : Type} (x : Sixteen α) (n m : Station) (a : α) (h : m ≠ n) :
    Sixteen.get (Sixteen.set x n a) m = Sixteen.get x m := by
  unfold Sixteen.get Sixteen.set
  by_cases hq : quarter m = quarter n
  · have hp : place m ≠ place n := fun hp => h ((station_eq m n).mpr ⟨hq, hp⟩)
    rw [hq, Four.get_set_same, Four.get_set_other _ _ _ _ hp]
  · rw [Four.get_set_other _ _ _ _ hq]

@[simp] theorem Sixteen.get_map {α β : Type} (f : α → β) (x : Sixteen α) (n : Station) :
    Sixteen.get (Sixteen.map f x) n = f (Sixteen.get x n) := by simp [Sixteen.get, Sixteen.map]

@[simp] theorem Sixteen.get_same {α : Type} (a : α) (n : Station) :
    Sixteen.get (Four.same (Four.same a)) n = a := by simp [Sixteen.get]

end Sys2Proof.Machine
end

