-- ==== Sys2Proof/Laws/Lists.lean ====
section
/-! SUPPORT. Ordered insertion keeps the elements. -/

namespace Sys2Proof.Machine

theorem insertOrdered_perm {α : Type} (before : α → α → Bool) (a : α) (l : List α) :
    (insertOrdered before a l).Perm (a :: l) := by
  induction l with
  | nil => exact List.Perm.refl _
  | cons b bs ih =>
    simp only [insertOrdered]
    split
    · exact (List.Perm.cons b ih).trans (List.Perm.swap a b bs)
    · exact List.Perm.refl _

theorem putInOrder_perm {α : Type} (before : α → α → Bool) (l : List α) : (putInOrder before l).Perm l := by
  induction l with
  | nil => exact List.Perm.refl _
  | cons a as ih => exact (insertOrdered_perm before a _).trans (List.Perm.cons a ih)

end Sys2Proof.Machine
end

