-- ==== Sys2Proof/Laws/Output.lean ====
section
/-! SUPPORT. The totals of the channel records, and what a cut does to them. -/

namespace Sys2Proof.Machine

/-! ### One channel -/

theorem Channel.levelToApply_le (ch : Channel) : ch.levelToApply ≤ ch.committed := by
  unfold Channel.levelToApply
  split
  · exact Nat.zero_le _
  · split
    · exact Nat.le_refl _
    · exact Nat.min_le_left _ _

@[simp] theorem Channel.lowerTo_committed (l : Nat) (ch : Channel) : (ch.lowerTo l).committed = l := rfl
@[simp] theorem Channel.lowerTo_applied (l : Nat) (ch : Channel) : (ch.lowerTo l).applied = ch.applied := rfl
@[simp] theorem Channel.lowerTo_priority (l : Nat) (ch : Channel) : (ch.lowerTo l).priority = ch.priority := rfl
@[simp] theorem Channel.lowerTo_tripped (l : Nat) (ch : Channel) : (ch.lowerTo l).tripped = ch.tripped := rfl
@[simp] theorem Channel.lowerTo_cut (l : Nat) (ch : Channel) : (ch.lowerTo l).cut = ch.cut := rfl
@[simp] theorem Channel.lowerTo_output (l : Nat) (ch : Channel) : (ch.lowerTo l).output = ch.output := rfl
@[simp] theorem Channel.lowerTo_onCount (l : Nat) (ch : Channel) : (ch.lowerTo l).onCount = ch.onCount := rfl

/-- A lowering never raises what a period start would apply (R117, R120). -/
theorem Channel.lowerTo_levelToApply_le (l : Nat) (ch : Channel) (h : l ≤ ch.committed) :
    (ch.lowerTo l).levelToApply ≤ ch.levelToApply := by
  obtain ⟨c, a, p, g, ct, t, o, out⟩ := ch
  cases t <;> cases g <;> simp_all [Channel.levelToApply, Channel.lowerTo]
  rename_i g
  by_cases hg : l ≤ g <;> simp [hg] <;> omega

theorem Channel.lowerTo_gate_of_none (l : Nat) (ch : Channel) (h : ch.gate = none) : (ch.lowerTo l).gate = none := by
  simp [Channel.lowerTo, h]

/-! ### Totals and one channel -/

theorem committedTotal_set (x : Four Channel) (i : Chan) (ch : Channel) :
    committedTotal (x.set i ch) + (x.get i).committed = committedTotal x + ch.committed := by
  rcases chan_cases i with rfl | rfl | rfl | rfl <;>
    simp [committedTotal, Four.set, Four.get] <;> omega

theorem appliedTotal_set (x : Four Channel) (i : Chan) (ch : Channel) :
    appliedTotal (x.set i ch) + (x.get i).applied = appliedTotal x + ch.applied := by
  rcases chan_cases i with rfl | rfl | rfl | rfl <;>
    simp [appliedTotal, Four.set, Four.get] <;> omega

theorem totalToApply_set (x : Four Channel) (i : Chan) (ch : Channel) :
    totalToApply (x.set i ch) + (x.get i).levelToApply = totalToApply x + ch.levelToApply := by
  rcases chan_cases i with rfl | rfl | rfl | rfl <;>
    simp [totalToApply, Four.set, Four.get] <;> omega

theorem committed_le_total (x : Four Channel) (i : Chan) : (x.get i).committed ≤ committedTotal x := by
  rcases chan_cases i with rfl | rfl | rfl | rfl <;> simp [committedTotal, Four.get] <;> omega

theorem totalToApply_le_committedTotal (x : Four Channel) : totalToApply x ≤ committedTotal x := by
  have h0 := x.q0.levelToApply_le
  have h1 := x.q1.levelToApply_le
  have h2 := x.q2.levelToApply_le
  have h3 := x.q3.levelToApply_le
  simp only [totalToApply, committedTotal]
  omega

/-- A grant or commit of a request leaves the needed total committed (R104). -/
theorem committedTotal_set_needed (x : Four Channel) (i : Chan) (ch : Channel) :
    committedTotal (x.set i ch) = neededTotal x i ch.committed := by
  have h := committedTotal_set x i ch
  have h' := committed_le_total x i
  simp only [neededTotal]
  omega

/-! ### A cut (R121) -/

/-- What a cut leaves of a channel: a level at or below the old one, and everything but the level, the gate and the cut
mark as it was. -/
theorem cutWalk_get (cs : List Chan) (n : Nat) (x : Four Channel) (i : Chan) :
    ((cutWalk cs n x).get i).committed ≤ (x.get i).committed
      ∧ ((cutWalk cs n x).get i).levelToApply ≤ (x.get i).levelToApply
      ∧ ((cutWalk cs n x).get i).applied = (x.get i).applied
      ∧ ((cutWalk cs n x).get i).priority = (x.get i).priority
      ∧ ((cutWalk cs n x).get i).tripped = (x.get i).tripped
      ∧ ((cutWalk cs n x).get i).onCount = (x.get i).onCount
      ∧ ((cutWalk cs n x).get i).output = (x.get i).output
      ∧ ((x.get i).gate = none → ((cutWalk cs n x).get i).gate = none) := by
  induction cs generalizing n x with
  | nil => simp [cutWalk]
  | cons c rest ih =>
    simp only [cutWalk]
    split
    · exact ih n x
    · have h := ih (n - min (x.get c).committed n) (x.set c ((x.get c).give (min (x.get c).committed n)))
      by_cases hc : i = c
      · subst hc
        rw [Four.get_set_same] at h
        obtain ⟨h1, h2, h3, h4, h5, h6, h7, h8⟩ := h
        have hl : ((x.get i).give (min (x.get i).committed n)).levelToApply ≤ (x.get i).levelToApply :=
          (x.get i).lowerTo_levelToApply_le _ (Nat.sub_le _ _)
        refine ⟨Nat.le_trans h1 (Nat.sub_le _ _), Nat.le_trans h2 hl, h3, h4, h5, h6, h7, ?_⟩
        intro hg
        exact h8 (Channel.lowerTo_gate_of_none _ _ hg)
      · rw [Four.get_set_other _ _ _ _ hc] at h
        exact h

/-- A walk over distinct channels that hold enough takes the whole amount. -/
theorem committedTotal_cutWalk (cs : List Chan) (n : Nat) (x : Four Channel) (hd : cs.Nodup)
    (h : n ≤ (cs.map fun c => (x.get c).committed).sum) :
    committedTotal (cutWalk cs n x) + n = committedTotal x := by
  induction cs generalizing n x with
  | nil =>
    simp only [List.map_nil, List.sum_nil, Nat.le_zero] at h
    simp [cutWalk, h]
  | cons c rest ih =>
    obtain ⟨hc, hr⟩ := List.nodup_cons.mp hd
    simp only [List.map_cons, List.sum_cons] at h
    simp only [cutWalk]
    split
    · rename_i hz
      exact ih n x hr (by omega)
    · have hs := committedTotal_set x c ((x.get c).give (min (x.get c).committed n))
      have hg : ((x.get c).give (min (x.get c).committed n)).committed
          = (x.get c).committed - min (x.get c).committed n := rfl
      have hm : (rest.map fun d => ((x.set c ((x.get c).give (min (x.get c).committed n))).get d).committed)
          = rest.map fun d => (x.get d).committed := by
        apply List.map_congr_left
        intro d hdm
        rw [Four.get_set_other]
        intro hdc
        exact hc (hdc ▸ hdm)
      have hi := ih (n - min (x.get c).committed n) (x.set c ((x.get c).give (min (x.get c).committed n))) hr
        (by rw [hm]; omega)
      rw [hg] at hs
      omega

theorem cutOrder_perm (x : Four Channel) : (cutOrder x).Perm [0, 1, 2, 3] := putInOrder_perm _ _

theorem sum_cutOrder (x : Four Channel) : ((cutOrder x).map fun c => (x.get c).committed).sum = committedTotal x := by
  rw [((cutOrder_perm x).map fun c => (x.get c).committed).sum_eq]
  simp [committedTotal, Four.get]
  omega

/-- After a cut the committed total is the target, or what it was when that is less (R121). -/
theorem committedTotal_cutTo (target : Nat) (x : Four Channel) :
    committedTotal (cutTo target x) = min (committedTotal x) target := by
  unfold cutTo
  split
  · omega
  · have h := committedTotal_cutWalk (cutOrder x) (committedTotal x - target) x
      ((cutOrder_perm x).nodup_iff.mpr (by decide)) (by rw [sum_cutOrder]; omega)
    omega

/-- What a cut leaves of a channel (R121). -/
theorem cutTo_get (target : Nat) (x : Four Channel) (i : Chan) :
    ((cutTo target x).get i).committed ≤ (x.get i).committed
      ∧ ((cutTo target x).get i).levelToApply ≤ (x.get i).levelToApply
      ∧ ((cutTo target x).get i).applied = (x.get i).applied
      ∧ ((cutTo target x).get i).priority = (x.get i).priority
      ∧ ((cutTo target x).get i).tripped = (x.get i).tripped
      ∧ ((cutTo target x).get i).onCount = (x.get i).onCount
      ∧ ((cutTo target x).get i).output = (x.get i).output
      ∧ ((x.get i).gate = none → ((cutTo target x).get i).gate = none) := by
  unfold cutTo
  split
  · simp
  · exact cutWalk_get _ _ x i

theorem appliedTotal_cutTo (target : Nat) (x : Four Channel) : appliedTotal (cutTo target x) = appliedTotal x := by
  have h0 := (cutTo_get target x 0).2.2.1
  have h1 := (cutTo_get target x 1).2.2.1
  have h2 := (cutTo_get target x 2).2.2.1
  have h3 := (cutTo_get target x 3).2.2.1
  simp only [Four.get] at h0 h1 h2 h3
  simp_all [appliedTotal]

theorem totalToApply_cutTo_le (target : Nat) (x : Four Channel) : totalToApply (cutTo target x) ≤ totalToApply x := by
  have h0 := (cutTo_get target x 0).2.1
  have h1 := (cutTo_get target x 1).2.1
  have h2 := (cutTo_get target x 2).2.1
  have h3 := (cutTo_get target x 3).2.1
  simp only [Four.get] at h0 h1 h2 h3
  simp_all [totalToApply]
  omega

end Sys2Proof.Machine
end

