-- ==== Sys2Proof/Laws/State.lean ====
section
/-! SUPPORT. Each field after each update of one part of the state. -/

namespace Sys2Proof.Machine

/-! ### raise -/

@[simp] theorem raise_phase (e : Event) (s : State) : (raise e s).phase = s.phase := rfl
@[simp] theorem raise_line (e : Event) (s : State) : (raise e s).line = s.line := rfl
@[simp] theorem raise_peers (e : Event) (s : State) : (raise e s).peers = s.peers := rfl
@[simp] theorem raise_share (e : Event) (s : State) : (raise e s).share = s.share := rfl
@[simp] theorem raise_member (e : Event) (s : State) : (raise e s).member = s.member := rfl
@[simp] theorem raise_demand (e : Event) (s : State) : (raise e s).demand = s.demand := rfl
@[simp] theorem raise_outputs (e : Event) (s : State) : (raise e s).outputs = s.outputs := rfl
@[simp] theorem raise_sense (e : Event) (s : State) : (raise e s).sense = s.sense := rfl
@[simp] theorem raise_config (e : Event) (s : State) : (raise e s).config = s.config := rfl
@[simp] theorem raise_store (e : Event) (s : State) : (raise e s).store = s.store := rfl
@[simp] theorem raise_port (e : Event) (s : State) : (raise e s).port = { s.port with flags := s.port.flags ||| e.mask } := rfl
@[simp] theorem raise_freeIndex (e : Event) (s : State) : (raise e s).freeIndex = s.freeIndex := rfl
@[simp] theorem raise_pending (e : Event) (s : State) : (raise e s).pending = s.pending := rfl

/-! ### onLine -/

@[simp] theorem onLine_phase (f : LineInterface → LineInterface) (s : State) : (onLine f s).phase = s.phase := rfl
@[simp] theorem onLine_line (f : LineInterface → LineInterface) (s : State) : (onLine f s).line = f s.line := rfl
@[simp] theorem onLine_peers (f : LineInterface → LineInterface) (s : State) : (onLine f s).peers = s.peers := rfl
@[simp] theorem onLine_share (f : LineInterface → LineInterface) (s : State) : (onLine f s).share = s.share := rfl
@[simp] theorem onLine_member (f : LineInterface → LineInterface) (s : State) : (onLine f s).member = s.member := rfl
@[simp] theorem onLine_demand (f : LineInterface → LineInterface) (s : State) : (onLine f s).demand = s.demand := rfl
@[simp] theorem onLine_outputs (f : LineInterface → LineInterface) (s : State) : (onLine f s).outputs = s.outputs := rfl
@[simp] theorem onLine_sense (f : LineInterface → LineInterface) (s : State) : (onLine f s).sense = s.sense := rfl
@[simp] theorem onLine_config (f : LineInterface → LineInterface) (s : State) : (onLine f s).config = s.config := rfl
@[simp] theorem onLine_store (f : LineInterface → LineInterface) (s : State) : (onLine f s).store = s.store := rfl
@[simp] theorem onLine_port (f : LineInterface → LineInterface) (s : State) : (onLine f s).port = s.port := rfl
@[simp] theorem onLine_freeIndex (f : LineInterface → LineInterface) (s : State) : (onLine f s).freeIndex = s.freeIndex := rfl
@[simp] theorem onLine_pending (f : LineInterface → LineInterface) (s : State) : (onLine f s).pending = s.pending := rfl

/-! ### onChannel -/

@[simp] theorem onChannel_phase (c : Chan) (f : Channel → Channel) (s : State) : (onChannel c f s).phase = s.phase := rfl
@[simp] theorem onChannel_line (c : Chan) (f : Channel → Channel) (s : State) : (onChannel c f s).line = s.line := rfl
@[simp] theorem onChannel_peers (c : Chan) (f : Channel → Channel) (s : State) : (onChannel c f s).peers = s.peers := rfl
@[simp] theorem onChannel_share (c : Chan) (f : Channel → Channel) (s : State) : (onChannel c f s).share = s.share := rfl
@[simp] theorem onChannel_member (c : Chan) (f : Channel → Channel) (s : State) : (onChannel c f s).member = s.member := rfl
@[simp] theorem onChannel_demand (c : Chan) (f : Channel → Channel) (s : State) : (onChannel c f s).demand = s.demand := rfl
@[simp] theorem onChannel_outputs (c : Chan) (f : Channel → Channel) (s : State) : (onChannel c f s).outputs = { s.outputs with channels := s.outputs.channels.set c (f (s.outputs.channels.get c)) } := rfl
@[simp] theorem onChannel_sense (c : Chan) (f : Channel → Channel) (s : State) : (onChannel c f s).sense = s.sense := rfl
@[simp] theorem onChannel_config (c : Chan) (f : Channel → Channel) (s : State) : (onChannel c f s).config = s.config := rfl
@[simp] theorem onChannel_store (c : Chan) (f : Channel → Channel) (s : State) : (onChannel c f s).store = s.store := rfl
@[simp] theorem onChannel_port (c : Chan) (f : Channel → Channel) (s : State) : (onChannel c f s).port = s.port := rfl
@[simp] theorem onChannel_freeIndex (c : Chan) (f : Channel → Channel) (s : State) : (onChannel c f s).freeIndex = s.freeIndex := rfl
@[simp] theorem onChannel_pending (c : Chan) (f : Channel → Channel) (s : State) : (onChannel c f s).pending = s.pending := rfl

/-! ### onChannels -/

@[simp] theorem onChannels_phase (f : Four Channel → Four Channel) (s : State) : (onChannels f s).phase = s.phase := rfl
@[simp] theorem onChannels_line (f : Four Channel → Four Channel) (s : State) : (onChannels f s).line = s.line := rfl
@[simp] theorem onChannels_peers (f : Four Channel → Four Channel) (s : State) : (onChannels f s).peers = s.peers := rfl
@[simp] theorem onChannels_share (f : Four Channel → Four Channel) (s : State) : (onChannels f s).share = s.share := rfl
@[simp] theorem onChannels_member (f : Four Channel → Four Channel) (s : State) : (onChannels f s).member = s.member := rfl
@[simp] theorem onChannels_demand (f : Four Channel → Four Channel) (s : State) : (onChannels f s).demand = s.demand := rfl
@[simp] theorem onChannels_outputs (f : Four Channel → Four Channel) (s : State) : (onChannels f s).outputs = { s.outputs with channels := f s.outputs.channels } := rfl
@[simp] theorem onChannels_sense (f : Four Channel → Four Channel) (s : State) : (onChannels f s).sense = s.sense := rfl
@[simp] theorem onChannels_config (f : Four Channel → Four Channel) (s : State) : (onChannels f s).config = s.config := rfl
@[simp] theorem onChannels_store (f : Four Channel → Four Channel) (s : State) : (onChannels f s).store = s.store := rfl
@[simp] theorem onChannels_port (f : Four Channel → Four Channel) (s : State) : (onChannels f s).port = s.port := rfl
@[simp] theorem onChannels_freeIndex (f : Four Channel → Four Channel) (s : State) : (onChannels f s).freeIndex = s.freeIndex := rfl
@[simp] theorem onChannels_pending (f : Four Channel → Four Channel) (s : State) : (onChannels f s).pending = s.pending := rfl

/-! ### setRequests -/

@[simp] theorem setRequests_phase (rs : List Request) (s : State) : (setRequests rs s).phase = s.phase := rfl
@[simp] theorem setRequests_line (rs : List Request) (s : State) : (setRequests rs s).line = s.line := rfl
@[simp] theorem setRequests_peers (rs : List Request) (s : State) : (setRequests rs s).peers = s.peers := rfl
@[simp] theorem setRequests_share (rs : List Request) (s : State) : (setRequests rs s).share = s.share := rfl
@[simp] theorem setRequests_member (rs : List Request) (s : State) : (setRequests rs s).member = s.member := rfl
@[simp] theorem setRequests_demand (rs : List Request) (s : State) : (setRequests rs s).demand = { s.demand with requests := rs } := rfl
@[simp] theorem setRequests_outputs (rs : List Request) (s : State) : (setRequests rs s).outputs = s.outputs := rfl
@[simp] theorem setRequests_sense (rs : List Request) (s : State) : (setRequests rs s).sense = s.sense := rfl
@[simp] theorem setRequests_config (rs : List Request) (s : State) : (setRequests rs s).config = s.config := rfl
@[simp] theorem setRequests_store (rs : List Request) (s : State) : (setRequests rs s).store = s.store := rfl
@[simp] theorem setRequests_port (rs : List Request) (s : State) : (setRequests rs s).port = s.port := rfl
@[simp] theorem setRequests_freeIndex (rs : List Request) (s : State) : (setRequests rs s).freeIndex = s.freeIndex := rfl
@[simp] theorem setRequests_pending (rs : List Request) (s : State) : (setRequests rs s).pending = s.pending := rfl

/-! ### writeResult -/

@[simp] theorem writeResult_phase (c : Chan) (tag : Byte) (code : ResultCode) (s : State) : (writeResult c tag code s).phase = s.phase := rfl
@[simp] theorem writeResult_line (c : Chan) (tag : Byte) (code : ResultCode) (s : State) : (writeResult c tag code s).line = s.line := rfl
@[simp] theorem writeResult_peers (c : Chan) (tag : Byte) (code : ResultCode) (s : State) : (writeResult c tag code s).peers = s.peers := rfl
@[simp] theorem writeResult_share (c : Chan) (tag : Byte) (code : ResultCode) (s : State) : (writeResult c tag code s).share = s.share := rfl
@[simp] theorem writeResult_member (c : Chan) (tag : Byte) (code : ResultCode) (s : State) : (writeResult c tag code s).member = s.member := rfl
@[simp] theorem writeResult_demand (c : Chan) (tag : Byte) (code : ResultCode) (s : State) : (writeResult c tag code s).demand = { s.demand with lastResults := s.demand.lastResults.set c { tag := tag, code := code } } := rfl
@[simp] theorem writeResult_outputs (c : Chan) (tag : Byte) (code : ResultCode) (s : State) : (writeResult c tag code s).outputs = s.outputs := rfl
@[simp] theorem writeResult_sense (c : Chan) (tag : Byte) (code : ResultCode) (s : State) : (writeResult c tag code s).sense = s.sense := rfl
@[simp] theorem writeResult_config (c : Chan) (tag : Byte) (code : ResultCode) (s : State) : (writeResult c tag code s).config = s.config := rfl
@[simp] theorem writeResult_store (c : Chan) (tag : Byte) (code : ResultCode) (s : State) : (writeResult c tag code s).store = s.store := rfl
@[simp] theorem writeResult_port (c : Chan) (tag : Byte) (code : ResultCode) (s : State) : (writeResult c tag code s).port = { s.port with flags := s.port.flags ||| Event.result.mask } := rfl
@[simp] theorem writeResult_freeIndex (c : Chan) (tag : Byte) (code : ResultCode) (s : State) : (writeResult c tag code s).freeIndex = s.freeIndex := rfl
@[simp] theorem writeResult_pending (c : Chan) (tag : Byte) (code : ResultCode) (s : State) : (writeResult c tag code s).pending = s.pending := rfl

/-! ### setAsk -/

@[simp] theorem setAsk_phase (a : AskRecord) (s : State) : (setAsk a s).phase = s.phase := rfl
@[simp] theorem setAsk_line (a : AskRecord) (s : State) : (setAsk a s).line = s.line := rfl
@[simp] theorem setAsk_peers (a : AskRecord) (s : State) : (setAsk a s).peers = s.peers := rfl
@[simp] theorem setAsk_share (a : AskRecord) (s : State) : (setAsk a s).share = { s.share with ask := a } := rfl
@[simp] theorem setAsk_member (a : AskRecord) (s : State) : (setAsk a s).member = s.member := rfl
@[simp] theorem setAsk_demand (a : AskRecord) (s : State) : (setAsk a s).demand = s.demand := rfl
@[simp] theorem setAsk_outputs (a : AskRecord) (s : State) : (setAsk a s).outputs = s.outputs := rfl
@[simp] theorem setAsk_sense (a : AskRecord) (s : State) : (setAsk a s).sense = s.sense := rfl
@[simp] theorem setAsk_config (a : AskRecord) (s : State) : (setAsk a s).config = s.config := rfl
@[simp] theorem setAsk_store (a : AskRecord) (s : State) : (setAsk a s).store = s.store := rfl
@[simp] theorem setAsk_port (a : AskRecord) (s : State) : (setAsk a s).port = s.port := rfl
@[simp] theorem setAsk_freeIndex (a : AskRecord) (s : State) : (setAsk a s).freeIndex = s.freeIndex := rfl
@[simp] theorem setAsk_pending (a : AskRecord) (s : State) : (setAsk a s).pending = s.pending := rfl

/-! ### emptyAsk -/

@[simp] theorem emptyAsk_phase (s : State) : (emptyAsk s).phase = s.phase := rfl
@[simp] theorem emptyAsk_line (s : State) : (emptyAsk s).line = s.line := rfl
@[simp] theorem emptyAsk_peers (s : State) : (emptyAsk s).peers = s.peers := rfl
@[simp] theorem emptyAsk_share (s : State) : (emptyAsk s).share = { s.share with ask := s.share.ask.empty } := rfl
@[simp] theorem emptyAsk_member (s : State) : (emptyAsk s).member = s.member := rfl
@[simp] theorem emptyAsk_demand (s : State) : (emptyAsk s).demand = s.demand := rfl
@[simp] theorem emptyAsk_outputs (s : State) : (emptyAsk s).outputs = s.outputs := rfl
@[simp] theorem emptyAsk_sense (s : State) : (emptyAsk s).sense = s.sense := rfl
@[simp] theorem emptyAsk_config (s : State) : (emptyAsk s).config = s.config := rfl
@[simp] theorem emptyAsk_store (s : State) : (emptyAsk s).store = s.store := rfl
@[simp] theorem emptyAsk_port (s : State) : (emptyAsk s).port = s.port := rfl
@[simp] theorem emptyAsk_freeIndex (s : State) : (emptyAsk s).freeIndex = s.freeIndex := rfl
@[simp] theorem emptyAsk_pending (s : State) : (emptyAsk s).pending = s.pending := rfl

/-! ### setOwn -/

@[simp] theorem setOwn_phase (o : Option OwnRecord) (s : State) : (setOwn o s).phase = s.phase := rfl
@[simp] theorem setOwn_line (o : Option OwnRecord) (s : State) : (setOwn o s).line = s.line := rfl
@[simp] theorem setOwn_peers (o : Option OwnRecord) (s : State) : (setOwn o s).peers = s.peers := rfl
@[simp] theorem setOwn_share (o : Option OwnRecord) (s : State) : (setOwn o s).share = { s.share with own := o } := rfl
@[simp] theorem setOwn_member (o : Option OwnRecord) (s : State) : (setOwn o s).member = s.member := rfl
@[simp] theorem setOwn_demand (o : Option OwnRecord) (s : State) : (setOwn o s).demand = s.demand := rfl
@[simp] theorem setOwn_outputs (o : Option OwnRecord) (s : State) : (setOwn o s).outputs = s.outputs := rfl
@[simp] theorem setOwn_sense (o : Option OwnRecord) (s : State) : (setOwn o s).sense = s.sense := rfl
@[simp] theorem setOwn_config (o : Option OwnRecord) (s : State) : (setOwn o s).config = s.config := rfl
@[simp] theorem setOwn_store (o : Option OwnRecord) (s : State) : (setOwn o s).store = s.store := rfl
@[simp] theorem setOwn_port (o : Option OwnRecord) (s : State) : (setOwn o s).port = s.port := rfl
@[simp] theorem setOwn_freeIndex (o : Option OwnRecord) (s : State) : (setOwn o s).freeIndex = s.freeIndex := rfl
@[simp] theorem setOwn_pending (o : Option OwnRecord) (s : State) : (setOwn o s).pending = s.pending := rfl

/-! ### enter -/

@[simp] theorem enter_phase (st : StationState) (s : State) : (enter st s).phase = s.phase := rfl
@[simp] theorem enter_line (st : StationState) (s : State) : (enter st s).line = s.line := rfl
@[simp] theorem enter_peers (st : StationState) (s : State) : (enter st s).peers = s.peers := rfl
@[simp] theorem enter_share (st : StationState) (s : State) : (enter st s).share = s.share := rfl
@[simp] theorem enter_member (st : StationState) (s : State) : (enter st s).member = { s.member with state := st } := rfl
@[simp] theorem enter_demand (st : StationState) (s : State) : (enter st s).demand = s.demand := rfl
@[simp] theorem enter_outputs (st : StationState) (s : State) : (enter st s).outputs = s.outputs := rfl
@[simp] theorem enter_sense (st : StationState) (s : State) : (enter st s).sense = s.sense := rfl
@[simp] theorem enter_config (st : StationState) (s : State) : (enter st s).config = s.config := rfl
@[simp] theorem enter_store (st : StationState) (s : State) : (enter st s).store = s.store := rfl
@[simp] theorem enter_port (st : StationState) (s : State) : (enter st s).port = { s.port with flags := s.port.flags ||| Event.membership.mask } := rfl
@[simp] theorem enter_freeIndex (st : StationState) (s : State) : (enter st s).freeIndex = s.freeIndex := rfl
@[simp] theorem enter_pending (st : StationState) (s : State) : (enter st s).pending = s.pending := rfl

/-! ### setRow -/

@[simp] theorem setRow_phase (n : Station) (r : Row) (s : State) : (setRow n r s).phase = s.phase := rfl
@[simp] theorem setRow_line (n : Station) (r : Row) (s : State) : (setRow n r s).line = s.line := rfl
@[simp] theorem setRow_peers (n : Station) (r : Row) (s : State) : (setRow n r s).peers = Sixteen.set s.peers n r := rfl
@[simp] theorem setRow_share (n : Station) (r : Row) (s : State) : (setRow n r s).share = s.share := rfl
@[simp] theorem setRow_member (n : Station) (r : Row) (s : State) : (setRow n r s).member = s.member := rfl
@[simp] theorem setRow_demand (n : Station) (r : Row) (s : State) : (setRow n r s).demand = s.demand := rfl
@[simp] theorem setRow_outputs (n : Station) (r : Row) (s : State) : (setRow n r s).outputs = s.outputs := rfl
@[simp] theorem setRow_sense (n : Station) (r : Row) (s : State) : (setRow n r s).sense = s.sense := rfl
@[simp] theorem setRow_config (n : Station) (r : Row) (s : State) : (setRow n r s).config = s.config := rfl
@[simp] theorem setRow_store (n : Station) (r : Row) (s : State) : (setRow n r s).store = s.store := rfl
@[simp] theorem setRow_port (n : Station) (r : Row) (s : State) : (setRow n r s).port = s.port := rfl
@[simp] theorem setRow_freeIndex (n : Station) (r : Row) (s : State) : (setRow n r s).freeIndex = s.freeIndex := rfl
@[simp] theorem setRow_pending (n : Station) (r : Row) (s : State) : (setRow n r s).pending = s.pending := rfl

/-! ### onSense -/

@[simp] theorem onSense_phase (c : Chan) (f : SenseChannel → SenseChannel) (s : State) : (onSense c f s).phase = s.phase := rfl
@[simp] theorem onSense_line (c : Chan) (f : SenseChannel → SenseChannel) (s : State) : (onSense c f s).line = s.line := rfl
@[simp] theorem onSense_peers (c : Chan) (f : SenseChannel → SenseChannel) (s : State) : (onSense c f s).peers = s.peers := rfl
@[simp] theorem onSense_share (c : Chan) (f : SenseChannel → SenseChannel) (s : State) : (onSense c f s).share = s.share := rfl
@[simp] theorem onSense_member (c : Chan) (f : SenseChannel → SenseChannel) (s : State) : (onSense c f s).member = s.member := rfl
@[simp] theorem onSense_demand (c : Chan) (f : SenseChannel → SenseChannel) (s : State) : (onSense c f s).demand = s.demand := rfl
@[simp] theorem onSense_outputs (c : Chan) (f : SenseChannel → SenseChannel) (s : State) : (onSense c f s).outputs = s.outputs := rfl
@[simp] theorem onSense_sense (c : Chan) (f : SenseChannel → SenseChannel) (s : State) : (onSense c f s).sense = { s.sense with channels := s.sense.channels.set c (f (s.sense.channels.get c)) } := rfl
@[simp] theorem onSense_config (c : Chan) (f : SenseChannel → SenseChannel) (s : State) : (onSense c f s).config = s.config := rfl
@[simp] theorem onSense_store (c : Chan) (f : SenseChannel → SenseChannel) (s : State) : (onSense c f s).store = s.store := rfl
@[simp] theorem onSense_port (c : Chan) (f : SenseChannel → SenseChannel) (s : State) : (onSense c f s).port = s.port := rfl
@[simp] theorem onSense_freeIndex (c : Chan) (f : SenseChannel → SenseChannel) (s : State) : (onSense c f s).freeIndex = s.freeIndex := rfl
@[simp] theorem onSense_pending (c : Chan) (f : SenseChannel → SenseChannel) (s : State) : (onSense c f s).pending = s.pending := rfl

/-! ### setConverter -/

@[simp] theorem setConverter_phase (v : Converter) (s : State) : (setConverter v s).phase = s.phase := rfl
@[simp] theorem setConverter_line (v : Converter) (s : State) : (setConverter v s).line = s.line := rfl
@[simp] theorem setConverter_peers (v : Converter) (s : State) : (setConverter v s).peers = s.peers := rfl
@[simp] theorem setConverter_share (v : Converter) (s : State) : (setConverter v s).share = s.share := rfl
@[simp] theorem setConverter_member (v : Converter) (s : State) : (setConverter v s).member = s.member := rfl
@[simp] theorem setConverter_demand (v : Converter) (s : State) : (setConverter v s).demand = s.demand := rfl
@[simp] theorem setConverter_outputs (v : Converter) (s : State) : (setConverter v s).outputs = s.outputs := rfl
@[simp] theorem setConverter_sense (v : Converter) (s : State) : (setConverter v s).sense = { s.sense with converter := v } := rfl
@[simp] theorem setConverter_config (v : Converter) (s : State) : (setConverter v s).config = s.config := rfl
@[simp] theorem setConverter_store (v : Converter) (s : State) : (setConverter v s).store = s.store := rfl
@[simp] theorem setConverter_port (v : Converter) (s : State) : (setConverter v s).port = s.port := rfl
@[simp] theorem setConverter_freeIndex (v : Converter) (s : State) : (setConverter v s).freeIndex = s.freeIndex := rfl
@[simp] theorem setConverter_pending (v : Converter) (s : State) : (setConverter v s).pending = s.pending := rfl

/-! ### onStore -/

@[simp] theorem onStore_phase (f : ConfigStore → ConfigStore) (s : State) : (onStore f s).phase = s.phase := rfl
@[simp] theorem onStore_line (f : ConfigStore → ConfigStore) (s : State) : (onStore f s).line = s.line := rfl
@[simp] theorem onStore_peers (f : ConfigStore → ConfigStore) (s : State) : (onStore f s).peers = s.peers := rfl
@[simp] theorem onStore_share (f : ConfigStore → ConfigStore) (s : State) : (onStore f s).share = s.share := rfl
@[simp] theorem onStore_member (f : ConfigStore → ConfigStore) (s : State) : (onStore f s).member = s.member := rfl
@[simp] theorem onStore_demand (f : ConfigStore → ConfigStore) (s : State) : (onStore f s).demand = s.demand := rfl
@[simp] theorem onStore_outputs (f : ConfigStore → ConfigStore) (s : State) : (onStore f s).outputs = s.outputs := rfl
@[simp] theorem onStore_sense (f : ConfigStore → ConfigStore) (s : State) : (onStore f s).sense = s.sense := rfl
@[simp] theorem onStore_config (f : ConfigStore → ConfigStore) (s : State) : (onStore f s).config = s.config := rfl
@[simp] theorem onStore_store (f : ConfigStore → ConfigStore) (s : State) : (onStore f s).store = f s.store := rfl
@[simp] theorem onStore_port (f : ConfigStore → ConfigStore) (s : State) : (onStore f s).port = s.port := rfl
@[simp] theorem onStore_freeIndex (f : ConfigStore → ConfigStore) (s : State) : (onStore f s).freeIndex = s.freeIndex := rfl
@[simp] theorem onStore_pending (f : ConfigStore → ConfigStore) (s : State) : (onStore f s).pending = s.pending := rfl

/-! ### onPort -/

@[simp] theorem onPort_phase (f : LocalPort → LocalPort) (s : State) : (onPort f s).phase = s.phase := rfl
@[simp] theorem onPort_line (f : LocalPort → LocalPort) (s : State) : (onPort f s).line = s.line := rfl
@[simp] theorem onPort_peers (f : LocalPort → LocalPort) (s : State) : (onPort f s).peers = s.peers := rfl
@[simp] theorem onPort_share (f : LocalPort → LocalPort) (s : State) : (onPort f s).share = s.share := rfl
@[simp] theorem onPort_member (f : LocalPort → LocalPort) (s : State) : (onPort f s).member = s.member := rfl
@[simp] theorem onPort_demand (f : LocalPort → LocalPort) (s : State) : (onPort f s).demand = s.demand := rfl
@[simp] theorem onPort_outputs (f : LocalPort → LocalPort) (s : State) : (onPort f s).outputs = s.outputs := rfl
@[simp] theorem onPort_sense (f : LocalPort → LocalPort) (s : State) : (onPort f s).sense = s.sense := rfl
@[simp] theorem onPort_config (f : LocalPort → LocalPort) (s : State) : (onPort f s).config = s.config := rfl
@[simp] theorem onPort_store (f : LocalPort → LocalPort) (s : State) : (onPort f s).store = s.store := rfl
@[simp] theorem onPort_port (f : LocalPort → LocalPort) (s : State) : (onPort f s).port = f s.port := rfl
@[simp] theorem onPort_freeIndex (f : LocalPort → LocalPort) (s : State) : (onPort f s).freeIndex = s.freeIndex := rfl
@[simp] theorem onPort_pending (f : LocalPort → LocalPort) (s : State) : (onPort f s).pending = s.pending := rfl

/-! ### raiseLine -/

@[simp] theorem raiseLine_phase (reason : LineReason) (s : State) : (raiseLine reason s).phase = s.phase := rfl
@[simp] theorem raiseLine_line (reason : LineReason) (s : State) : (raiseLine reason s).line = { s.line with reason := reason } := rfl
@[simp] theorem raiseLine_peers (reason : LineReason) (s : State) : (raiseLine reason s).peers = s.peers := rfl
@[simp] theorem raiseLine_share (reason : LineReason) (s : State) : (raiseLine reason s).share = s.share := rfl
@[simp] theorem raiseLine_member (reason : LineReason) (s : State) : (raiseLine reason s).member = s.member := rfl
@[simp] theorem raiseLine_demand (reason : LineReason) (s : State) : (raiseLine reason s).demand = s.demand := rfl
@[simp] theorem raiseLine_outputs (reason : LineReason) (s : State) : (raiseLine reason s).outputs = s.outputs := rfl
@[simp] theorem raiseLine_sense (reason : LineReason) (s : State) : (raiseLine reason s).sense = s.sense := rfl
@[simp] theorem raiseLine_config (reason : LineReason) (s : State) : (raiseLine reason s).config = s.config := rfl
@[simp] theorem raiseLine_store (reason : LineReason) (s : State) : (raiseLine reason s).store = s.store := rfl
@[simp] theorem raiseLine_port (reason : LineReason) (s : State) : (raiseLine reason s).port = { s.port with flags := s.port.flags ||| Event.line.mask } := rfl
@[simp] theorem raiseLine_freeIndex (reason : LineReason) (s : State) : (raiseLine reason s).freeIndex = s.freeIndex := rfl
@[simp] theorem raiseLine_pending (reason : LineReason) (s : State) : (raiseLine reason s).pending = s.pending := rfl

/-! ### raiseIf -/

@[simp] theorem raiseIf_phase (c : Bool) (e : Event) (s : State) : (raiseIf c e s).phase = s.phase := by cases c <;> rfl
@[simp] theorem raiseIf_line (c : Bool) (e : Event) (s : State) : (raiseIf c e s).line = s.line := by cases c <;> rfl
@[simp] theorem raiseIf_peers (c : Bool) (e : Event) (s : State) : (raiseIf c e s).peers = s.peers := by cases c <;> rfl
@[simp] theorem raiseIf_share (c : Bool) (e : Event) (s : State) : (raiseIf c e s).share = s.share := by cases c <;> rfl
@[simp] theorem raiseIf_member (c : Bool) (e : Event) (s : State) : (raiseIf c e s).member = s.member := by cases c <;> rfl
@[simp] theorem raiseIf_demand (c : Bool) (e : Event) (s : State) : (raiseIf c e s).demand = s.demand := by cases c <;> rfl
@[simp] theorem raiseIf_outputs (c : Bool) (e : Event) (s : State) : (raiseIf c e s).outputs = s.outputs := by cases c <;> rfl
@[simp] theorem raiseIf_sense (c : Bool) (e : Event) (s : State) : (raiseIf c e s).sense = s.sense := by cases c <;> rfl
@[simp] theorem raiseIf_config (c : Bool) (e : Event) (s : State) : (raiseIf c e s).config = s.config := by cases c <;> rfl
@[simp] theorem raiseIf_store (c : Bool) (e : Event) (s : State) : (raiseIf c e s).store = s.store := by cases c <;> rfl
@[simp] theorem raiseIf_freeIndex (c : Bool) (e : Event) (s : State) : (raiseIf c e s).freeIndex = s.freeIndex := by cases c <;> rfl
@[simp] theorem raiseIf_pending (c : Bool) (e : Event) (s : State) : (raiseIf c e s).pending = s.pending := by cases c <;> rfl
@[simp] theorem raiseIf_port (c : Bool) (e : Event) (s : State) :
    (raiseIf c e s).port = { s.port with flags := if c then s.port.flags ||| e.mask else s.port.flags } := by cases c <;> rfl

/-! ### withPending -/

@[simp] theorem withPending_phase (s : State) (cs : List Instr) : (s.withPending cs).phase = s.phase := rfl
@[simp] theorem withPending_line (s : State) (cs : List Instr) : (s.withPending cs).line = s.line := rfl
@[simp] theorem withPending_peers (s : State) (cs : List Instr) : (s.withPending cs).peers = s.peers := rfl
@[simp] theorem withPending_share (s : State) (cs : List Instr) : (s.withPending cs).share = s.share := rfl
@[simp] theorem withPending_member (s : State) (cs : List Instr) : (s.withPending cs).member = s.member := rfl
@[simp] theorem withPending_demand (s : State) (cs : List Instr) : (s.withPending cs).demand = s.demand := rfl
@[simp] theorem withPending_outputs (s : State) (cs : List Instr) : (s.withPending cs).outputs = s.outputs := rfl
@[simp] theorem withPending_sense (s : State) (cs : List Instr) : (s.withPending cs).sense = s.sense := rfl
@[simp] theorem withPending_config (s : State) (cs : List Instr) : (s.withPending cs).config = s.config := rfl
@[simp] theorem withPending_store (s : State) (cs : List Instr) : (s.withPending cs).store = s.store := rfl
@[simp] theorem withPending_port (s : State) (cs : List Instr) : (s.withPending cs).port = s.port := rfl
@[simp] theorem withPending_freeIndex (s : State) (cs : List Instr) : (s.withPending cs).freeIndex = s.freeIndex := rfl
@[simp] theorem withPending_pending (s : State) (cs : List Instr) : (s.withPending cs).pending = cs := rfl

end Sys2Proof.Machine
end

