-- ==== Sys2Proof/Laws/Demand.lean ====
section
/-! SUPPORT. What each operation of the demand queue and of a cut or trip can change. -/

namespace Sys2Proof.Machine

/-- A state that differs from another only in the demand queue, the channel records and the event flags. -/
abbrev State.withDemand (s : State) (d : DemandQueue) (chs : Four Channel) (f : BitVec 9) : State :=
  { s with demand := d, outputs := { s.outputs with channels := chs }, port := { s.port with flags := f } }

theorem endRequestFor_frame (c : Chan) (code : ResultCode) (s : State) :
    ∃ d f, endRequestFor c code s = s.withDemand d s.outputs.channels f := by
  unfold endRequestFor
  split
  · exact ⟨s.demand, s.port.flags, rfl⟩
  · exact ⟨_, _, rfl⟩

/-- The queue after a channel's request has ended. -/
theorem endRequestFor_requests (c : Chan) (code : ResultCode) (s : State) :
    (endRequestFor c code s).demand.requests = withoutChannel c s.demand.requests := by
  unfold endRequestFor
  split
  · rename_i h
    unfold requestFor at h
    rw [List.find?_eq_none] at h
    unfold withoutChannel
    exact (List.filter_eq_self.mpr (by simpa using h)).symm
  · rfl

theorem foldParked_frame (rs : List Request) (s : State) :
    ∃ d f, rs.foldl (fun t r => writeResult r.channel r.tag .parked t) s = s.withDemand d s.outputs.channels f
      ∧ d.requests = s.demand.requests ∧ d.nextArrival = s.demand.nextArrival := by
  induction rs generalizing s with
  | nil => exact ⟨s.demand, s.port.flags, rfl, rfl, rfl⟩
  | cons r rest ih =>
    obtain ⟨d, f, h, h1, h2⟩ := ih (writeResult r.channel r.tag .parked s)
    exact ⟨d, f, by rw [List.foldl_cons, h]; rfl, h1, h2⟩

/-- Every queued request is removed (R111). -/
theorem endAllParked_frame (s : State) :
    ∃ d f, endAllParked s = s.withDemand d s.outputs.channels f ∧ d.requests = [] ∧ d.nextArrival = s.demand.nextArrival := by
  obtain ⟨d, f, h, h1, h2⟩ := foldParked_frame s.demand.requests (setRequests [] s)
  exact ⟨d, f, by unfold endAllParked; rw [h]; rfl, h1, h2⟩

/-- What every grant of the head keeps, a head re-check keeps (R106). -/
theorem headRecheck_induction (P : State → Prop)
    (grant : ∀ s r rest, P s → s.demand.requests = r :: rest → fitsLocally s r.channel r.target = true →
      P (grantHead r (setRequests rest s)))
    (s : State) (h : P s) : P (headRecheck s) := by
  unfold headRecheck
  generalize s.demand.requests.length = n
  induction n generalizing s with
  | zero => exact h
  | succ n ih =>
    simp only [recheckHeads]
    split
    · exact h
    · rename_i r rest hq
      split
      · rename_i hf
        exact ih _ (grant s r rest h hq hf)
      · exact h

theorem headRecheck_frame (s : State) : ∃ d chs f, headRecheck s = s.withDemand d chs f := by
  apply headRecheck_induction (fun t => ∃ d chs f, t = s.withDemand d chs f)
  · rintro t r rest ⟨d, chs, f, rfl⟩ _ _
    exact ⟨_, _, _, rfl⟩
  · exact ⟨s.demand, s.outputs.channels, s.port.flags, rfl⟩

/-- A head re-check outside MEMBER grants nothing (R106). -/
theorem headRecheck_of_not_member (s : State) (h : s.member.state ≠ .member) : headRecheck s = s := by
  unfold headRecheck
  cases hq : s.demand.requests with
  | nil => simp [recheckHeads]
  | cons r rest => simp [recheckHeads, hq, fitsLocally, h]

/-- A head re-check under hold or shortfall grants nothing (R106). -/
theorem headRecheck_of_hold (s : State) (h : s.share.hold = true ∨ s.share.shortfall.mark = true) : headRecheck s = s := by
  unfold headRecheck
  cases hq : s.demand.requests with
  | nil => simp [recheckHeads]
  | cons r rest => rcases h with h | h <;> simp [recheckHeads, hq, fitsLocally, h]

theorem shedCut_frame (target : Nat) (s : State) : ∃ d chs f, shedCut target s = s.withDemand d chs f := by
  unfold shedCut
  split
  · exact ⟨s.demand, s.outputs.channels, s.port.flags, rfl⟩
  · obtain ⟨d, chs, f, h⟩ := headRecheck_frame (raise .shed (onChannels (cutTo target) s))
    exact ⟨d, chs, f, by rw [h]; rfl⟩

theorem takeCommitNotice_frame (owner : Owner) (s : State) : ∃ d chs f, takeCommitNotice owner s = s.withDemand d chs f := by
  unfold takeCommitNotice
  split
  · exact ⟨s.demand, s.outputs.channels, s.port.flags, rfl⟩
  · split
    · exact ⟨_, _, _, rfl⟩
    · exact ⟨s.demand, s.outputs.channels, s.port.flags, rfl⟩

theorem tripChannel_frame (c : Chan) (s : State) : ∃ d chs f, tripChannel c s = s.withDemand d chs f := by
  unfold tripChannel
  obtain ⟨d, f, h⟩ := endRequestFor_frame c .tripped (raise .trip (onChannel c Channel.trip s))
  obtain ⟨d', chs', f', h'⟩ := headRecheck_frame (endRequestFor c .tripped (raise .trip (onChannel c Channel.trip s)))
  exact ⟨d', chs', f', by rw [h', h]; rfl⟩

theorem ageHead_frame (s : State) : ∃ d, ageHead s = { s with demand := d } := by
  unfold ageHead
  split
  · split
    · exact ⟨s.demand, rfl⟩
    · exact ⟨_, rfl⟩
  · exact ⟨s.demand, rfl⟩

theorem expireHead_frame (s : State) : ∃ d f, expireHead s = s.withDemand d s.outputs.channels f := by
  unfold expireHead
  split
  · exact ⟨s.demand, s.port.flags, rfl⟩
  · split
    · exact ⟨_, _, rfl⟩
    · exact ⟨s.demand, s.port.flags, rfl⟩

theorem carrySubmit_frame (c : Chan) (target : Nat) (priority : Priority) (tag : Byte) (s : State) :
    ∃ d chs f, carrySubmit c target priority tag s = s.withDemand d chs f := by
  obtain ⟨d, f, h⟩ := endRequestFor_frame c .superseded s
  unfold carrySubmit
  rw [h]
  dsimp only
  split
  · split
    · obtain ⟨d', chs', f', h'⟩ := headRecheck_frame (writeResult c tag .done (onChannel c (Channel.decrease target priority)
        (onChannel c (fun ch => { ch with cut := false }) (s.withDemand d s.outputs.channels f))))
      exact ⟨d', chs', f', by rw [h']; rfl⟩
    · exact ⟨_, _, _, rfl⟩
  · split
    · exact ⟨_, _, _, rfl⟩
    · exact ⟨_, _, _, rfl⟩

end Sys2Proof.Machine
end

