-- ==== Sys2Proof/Laws/Member.lean ====
section
/-! SUPPORT. What each operation of the membership controller, the sense monitor and the peer table can change. -/

namespace Sys2Proof.Machine

/-- A state that differs from another in the station state and counts as well (R81), and in the ask record. -/
abbrev State.withMember (s : State) (m : Membership) (a : AskRecord) (d : DemandQueue) (chs : Four Channel)
    (f : BitVec 9) : State :=
  { s with member := m, share := { s.share with ask := a }, demand := d, outputs := { s.outputs with channels := chs },
           port := { s.port with flags := f } }

theorem enterMember_frame (s : State) : ∃ d chs f,
    enterMember s = s.withMember { s.member with state := .member, isolationCount := 0 } s.share.ask d chs f := by
  obtain ⟨d, chs, f, h⟩ := headRecheck_frame (enter .member { s with member := { s.member with isolationCount := 0 } })
  exact ⟨d, chs, f, by unfold enterMember; rw [h]; rfl⟩

theorem enterIsolated_frame (s : State) : ∃ d chs f,
    enterIsolated s = s.withMember { s.member with state := .isolated } s.share.ask.empty d chs f := by
  obtain ⟨d, chs, f, h⟩ := shedCut_frame s.config.floor (emptyAsk (enter .isolated s))
  exact ⟨d, chs, f, by unfold enterIsolated; rw [h]; rfl⟩

theorem takeEmptyTable_frame (s : State) : ∃ m d chs f, takeEmptyTable s = s.withMember m s.share.ask d chs f := by
  unfold takeEmptyTable
  split
  · exact ⟨_, enterMember_frame s⟩
  · exact ⟨s.member, s.demand, s.outputs.channels, s.port.flags, rfl⟩

theorem membershipCheck_frame (view : Sixteen Row) (s : State) :
    ∃ m d chs f, membershipCheck view s = s.withMember m s.share.ask d chs f := by
  unfold membershipCheck
  cases s.member.state
  case isolated =>
    dsimp only
    split
    · exact ⟨_, enterMember_frame s⟩
    · exact ⟨s.member, s.demand, s.outputs.channels, s.port.flags, rfl⟩
  all_goals exact ⟨_, s.demand, s.outputs.channels, s.port.flags, rfl⟩

theorem takeListenExpiry_frame (s : State) : ∃ m d chs f, takeListenExpiry s = s.withMember m s.share.ask d chs f := by
  unfold takeListenExpiry
  split
  · exact ⟨_, s.demand, s.outputs.channels, _, rfl⟩
  · exact ⟨s.member, s.demand, s.outputs.channels, s.port.flags, rfl⟩

theorem takeJoinExpiry_frame (s : State) : ∃ m d chs f, takeJoinExpiry s = s.withMember m s.share.ask d chs f := by
  unfold takeJoinExpiry
  split
  · exact ⟨_, enterMember_frame s⟩
  · exact ⟨s.member, s.demand, s.outputs.channels, s.port.flags, rfl⟩

theorem takeIsolationExpiry_frame (s : State) : ∃ m a d chs f, takeIsolationExpiry s = s.withMember m a d chs f := by
  unfold takeIsolationExpiry
  split
  · exact ⟨_, _, enterIsolated_frame s⟩
  · exact ⟨s.member, s.share.ask, s.demand, s.outputs.channels, s.port.flags, rfl⟩

theorem takeMemberExpiries_frame (s : State) : ∃ m a d chs f, takeMemberExpiries s = s.withMember m a d chs f := by
  obtain ⟨m, a, d, chs, f, h⟩ := takeIsolationExpiry_frame s
  obtain ⟨m', d', chs', f', h'⟩ := takeJoinExpiry_frame (takeIsolationExpiry s)
  obtain ⟨m'', d'', chs'', f'', h''⟩ := takeListenExpiry_frame (takeJoinExpiry (takeIsolationExpiry s))
  exact ⟨m'', a, d'', chs'', f'', by unfold takeMemberExpiries; rw [h'', h', h]⟩

theorem takeLineWatch_frame (s : State) : ∃ m a d chs f, takeLineWatch s = s.withMember m a d chs f := by
  unfold takeLineWatch
  cases s.member.state
  case member => exact ⟨_, _, enterIsolated_frame s⟩
  all_goals exact ⟨_, s.share.ask, s.demand, s.outputs.channels, s.port.flags, rfl⟩

theorem takeDuplicate_frame (s : State) : ∃ m l a d chs f,
    takeDuplicate s = { (s.withMember m a d chs f) with line := l } := by
  unfold takeDuplicate
  split
  · exact ⟨s.member, s.line, s.share.ask, s.demand, s.outputs.channels, s.port.flags, rfl⟩
  · dsimp only
    obtain ⟨d, f, h, _⟩ := endAllParked_frame (emptyAsk (onChannels (Four.map Channel.force)
      { (enter .fault { s with member := { s.member with cause := .duplicate } }) with
        line := { s.line with transmitter := .silent } }))
    exact ⟨_, _, _, d, _, f, by rw [enter_line]; rw [h]; rfl⟩

/-! ### The peer table -/

/-- A CLAIM arrival replaces its row (R25 to R29). -/
theorem claimArrival_frame (n : Station) (q : Byte) (c : ClaimBody) (s : State) : ∃ m d chs f,
    claimArrival n q c s = { (s.withMember m s.share.ask d chs f) with
      peers := Sixteen.set s.peers n ((Sixteen.get s.peers n).afterClaim s.config.circuitCode q c) } := by
  unfold claimArrival
  dsimp only
  split
  · obtain ⟨d, chs, f, h⟩ := enterMember_frame (raiseIf (decide ((Sixteen.get s.peers n).state ≠ .live)) .peer
      (setRow n ((Sixteen.get s.peers n).afterClaim s.config.circuitCode q c) s))
    exact ⟨{ s.member with state := .member, isolationCount := 0 }, d, chs, f, by rw [h]; simp [State.withMember]⟩
  · refine ⟨s.member, s.demand, s.outputs.channels, ?_, ?_⟩
    · exact (raiseIf (decide ((Sixteen.get s.peers n).state ≠ .live)) .peer s).port.flags
    · cases decide ((Sixteen.get s.peers n).state ≠ .live) <;> rfl

/-- A removal clears its row (R30, R31, R36). -/
theorem removeRow_frame (n : Station) (s : State) : ∃ m d chs f,
    removeRow n s = { (s.withMember m s.share.ask d chs f) with peers := Sixteen.set s.peers n Row.cleared } := by
  unfold removeRow
  dsimp only
  split
  · obtain ⟨m, d, chs, f, h⟩ := takeEmptyTable_frame (raise .peer (setRow n Row.cleared s))
    exact ⟨m, d, chs, f, by rw [h]; rfl⟩
  · exact ⟨s.member, s.demand, s.outputs.channels, _, rfl⟩

/-! ### Trips -/

/-- A trip request changes what a trip can change, and the converter. -/
theorem takeTripRequest_frame (c : Chan) (s : State) :
    ∃ v d chs f, takeTripRequest c s = (setConverter v s).withDemand d chs f := by
  unfold takeTripRequest
  split
  · exact ⟨_, tripChannel_frame c _⟩
  · exact ⟨s.sense.converter, s.demand, s.outputs.channels, s.port.flags, rfl⟩

theorem takeTripRequest_of_none (c : Chan) (s : State) (h : tripStands c s = false) : takeTripRequest c s = s := by
  simp [takeTripRequest, h]

theorem takeTripRequests_frame (s : State) :
    ∃ v d chs f, takeTripRequests s = (setConverter v s).withDemand d chs f := by
  obtain ⟨_, d, chs, f, h⟩ := takeTripRequest_frame 0 s
  obtain ⟨_, d1, chs1, f1, h1⟩ := takeTripRequest_frame 1 (takeTripRequest 0 s)
  obtain ⟨_, d2, chs2, f2, h2⟩ := takeTripRequest_frame 2 (takeTripRequest 1 (takeTripRequest 0 s))
  obtain ⟨v, d3, chs3, f3, h3⟩ := takeTripRequest_frame 3 (takeTripRequest 2 (takeTripRequest 1 (takeTripRequest 0 s)))
  exact ⟨v, d3, chs3, f3, by unfold takeTripRequests; rw [h3, h2, h1, h]; rfl⟩

theorem handTripRequest_frame (c : Chan) (trip : TripTaking) (s : State) :
    ∃ v d chs f, handTripRequest c trip s = (setConverter v s).withDemand d chs f := by
  unfold handTripRequest
  split
  · exact ⟨.tripping c, s.demand, s.outputs.channels, s.port.flags, rfl⟩
  · exact takeTripRequest_frame c s

/-! ### Expiries left to a row that stands next -/

theorem takeMemberExpiriesNotNext_frame (s : State) :
    ∃ m a d chs f, takeMemberExpiriesNotNext s = s.withMember m a d chs f := by
  have skip : ∀ t : State, ∃ m a d chs f, t = t.withMember m a d chs f := fun t =>
    ⟨t.member, t.share.ask, t.demand, t.outputs.channels, t.port.flags, rfl⟩
  have isolation : ∀ t, ∃ m a d chs f, unlessNext .isolationCountExpiry takeIsolationExpiry t = t.withMember m a d chs f := by
    intro t; unfold unlessNext; split
    · exact skip t
    · exact takeIsolationExpiry_frame t
  have join : ∀ t, ∃ m a d chs f, unlessNext .joinCountExpiry takeJoinExpiry t = t.withMember m a d chs f := by
    intro t; unfold unlessNext; split
    · exact skip t
    · obtain ⟨m, d, chs, f, h⟩ := takeJoinExpiry_frame t
      exact ⟨m, _, d, chs, f, h⟩
  have listen : ∀ t, ∃ m a d chs f, unlessNext .listenCountExpiry takeListenExpiry t = t.withMember m a d chs f := by
    intro t; unfold unlessNext; split
    · exact skip t
    · obtain ⟨m, d, chs, f, h⟩ := takeListenExpiry_frame t
      exact ⟨m, _, d, chs, f, h⟩
  obtain ⟨_, _, _, _, _, h⟩ := isolation s
  obtain ⟨_, _, _, _, _, h1⟩ := join (unlessNext .isolationCountExpiry takeIsolationExpiry s)
  obtain ⟨m, a, d, chs, f, h2⟩ := listen (unlessNext .joinCountExpiry takeJoinExpiry
    (unlessNext .isolationCountExpiry takeIsolationExpiry s))
  exact ⟨m, a, d, chs, f, by unfold takeMemberExpiriesNotNext; rw [h2, h1, h]⟩

/-- In JOINING a completion begins no attempt while no expiry has come since a REJOIN (R19, R84, R168). -/
theorem tryHeldAttempt_of_awaitsExpiry {s : State} (j : s.member.state = .joining) (h : s.line.awaitsExpiry = true) :
    tryHeldAttempt s = s := if_pos ⟨j, h⟩

/-- Every other held expiry begins its attempt at the completion (R12, R168). -/
theorem tryHeldAttempt_of_expired {s : State} (h : s.member.state ≠ .joining ∨ s.line.awaitsExpiry = false) :
    tryHeldAttempt s = tryAttempt s := by
  rcases h with j | a
  · simp [tryHeldAttempt, j]
  · simp [tryHeldAttempt, a]

/-- When a frame is due, by state, mark and attempt count (R10, Table 1-4). -/
theorem frameDue_iff (s : State) : frameDue s = true ↔
    (s.member.state = .joining ∨ s.member.state = .member ∨ s.member.state = .isolated ∨ s.member.state = .parking)
      ∧ s.line.sentThisRound = false ∧ s.line.attempts < 3 := by
  unfold frameDue
  cases s.member.state <;> simp [StationState.sends]

end Sys2Proof.Machine
end

