-- ==== Sys2Proof/Laws/Memory.lean ====
section
/-! SUPPORT. The memory of the store: reading after writing, and the canonical form. -/

namespace Sys2Proof.Machine

/-- Below its lowest address a rising list reads as erased. -/
theorem Memory.read_of_lt_low (cells : List Host.Cell) (low a : Nat) (h : Memory.risingFrom low cells = true)
    (ha : a < low) : Memory.read cells a = Memory.erased := by
  induction cells generalizing low with
  | nil => rfl
  | cons cell rest ih =>
    obtain ⟨k, v⟩ := cell
    simp only [Memory.risingFrom, Bool.and_eq_true, decide_eq_true_eq] at h
    simp only [Memory.read, if_neg (by omega : ¬k = a)]
    exact ih (k + 1) h.2 (by omega)

/-- A rising list rises from any lower bound. -/
theorem Memory.risingFrom_mono (cells : List Host.Cell) (low low' : Nat) (h : Memory.risingFrom low cells = true)
    (hl : low' ≤ low) : Memory.risingFrom low' cells = true := by
  cases cells with
  | nil => rfl
  | cons cell rest =>
    obtain ⟨k, v⟩ := cell
    simp only [Memory.risingFrom, Bool.and_eq_true, decide_eq_true_eq] at h ⊢
    exact ⟨⟨⟨by omega, h.1.1.2⟩, h.1.2⟩, h.2⟩

/-- A write keeps a list rising from a bound at or below the address. -/
theorem Memory.risingFrom_write (cells : List Host.Cell) (low a : Nat) (v : Byte)
    (h : Memory.risingFrom low cells = true) (hl : low ≤ a) (ha : a < 256) :
    Memory.risingFrom low (Memory.write cells a v) = true := by
  induction cells generalizing low with
  | nil => by_cases hv : v = Memory.erased <;> simp [Memory.write, Memory.risingFrom, hv, hl, ha]
  | cons cell rest ih =>
    obtain ⟨k, w⟩ := cell
    have h' := h
    simp only [Memory.risingFrom, Bool.and_eq_true, decide_eq_true_eq] at h
    obtain ⟨⟨⟨hlk, hk⟩, hw⟩, hr⟩ := h
    simp only [Memory.write]
    split
    · rename_i hak
      split
      · exact h'
      · rename_i hv
        simp only [Memory.risingFrom, Bool.and_eq_true, decide_eq_true_eq]
        exact ⟨⟨⟨hl, ha⟩, hv⟩, ⟨⟨by omega, hk⟩, hw⟩, hr⟩
    · split
      · rename_i hak
        split
        · exact Memory.risingFrom_mono rest (k + 1) low hr (by omega)
        · rename_i hv
          simp only [Memory.risingFrom, Bool.and_eq_true, decide_eq_true_eq]
          exact ⟨⟨⟨hl, ha⟩, hv⟩, hak ▸ hr⟩
      · simp only [Memory.risingFrom, Bool.and_eq_true, decide_eq_true_eq]
        exact ⟨⟨⟨hlk, hk⟩, hw⟩, ih (k + 1) hr (by omega)⟩

/-- A write of one byte keeps the canonical form. -/
theorem Memory.wf_write (cells : List Host.Cell) (a v : Byte) (h : Memory.wf cells = true) :
    Memory.wf (Memory.write cells a.toNat v) = true :=
  Memory.risingFrom_write cells 0 a.toNat v h (Nat.zero_le _) a.isLt

/-- The byte written is read back. -/
theorem Memory.read_write_same (cells : List Host.Cell) (low a : Nat) (v : Byte)
    (h : Memory.risingFrom low cells = true) : Memory.read (Memory.write cells a v) a = v := by
  induction cells generalizing low with
  | nil => by_cases hv : v = Memory.erased <;> simp [Memory.write, Memory.read, hv]
  | cons cell rest ih =>
    obtain ⟨k, w⟩ := cell
    simp only [Memory.risingFrom, Bool.and_eq_true, decide_eq_true_eq] at h
    simp only [Memory.write]
    split
    · rename_i hak
      split
      · rename_i hv
        simp only [Memory.read, if_neg (by omega : ¬k = a)]
        rw [hv]
        exact Memory.read_of_lt_low rest (k + 1) a h.2 (by omega)
      · simp [Memory.read]
    · split
      · rename_i hak
        split
        · rename_i hv
          rw [hv]
          exact Memory.read_of_lt_low rest (k + 1) a h.2 (by omega)
        · simp [Memory.read]
      · rename_i h1 h2
        simp only [Memory.read, if_neg (by omega : ¬k = a)]
        exact ih (k + 1) h.2

/-- Every other byte reads as before. -/
theorem Memory.read_write_other (cells : List Host.Cell) (a b : Nat) (v : Byte) (h : b ≠ a) :
    Memory.read (Memory.write cells a v) b = Memory.read cells b := by
  induction cells with
  | nil => by_cases hv : v = Memory.erased <;> simp [Memory.write, Memory.read, hv, Ne.symm h]
  | cons cell rest ih =>
    obtain ⟨k, w⟩ := cell
    simp only [Memory.write]
    split
    · split
      · rfl
      · simp [Memory.read, Ne.symm h]
    · split
      · rename_i hak
        split
        · simp only [Memory.read, if_neg (by omega : ¬k = b)]
        · simp only [Memory.read, if_neg (Ne.symm h), if_neg (by omega : ¬k = b)]
      · simp only [Memory.read]
        split
        · rfl
        · exact ih

/-- Erased memory is in canonical form. -/
theorem Memory.wf_nil : Memory.wf [] = true := rfl

end Sys2Proof.Machine
end

