-- ==== Sys2Proof/Laws/Recheck.lean ====
section
/-! SUPPORT. A head re-check grants the requests in front that fit; which queues leave a close no expiry row. -/

namespace Sys2Proof.Machine

theorem boundNow_eq (s : State) : boundNow s = announcedBound s := by
  unfold boundNow announcedBound recordBound ClaimBody.bound
  cases s.share.own <;> rcases s.line.transmitter with _ | _ | (_ | _) <;> rfl

theorem fitsLocally_iff (s : State) (r : Request) :
    fitsLocally s r.channel r.target = true ↔ fitsAt s s.outputs.channels r := by
  unfold fitsLocally fitsAt neededTotal
  rw [boundNow_eq]
  exact decide_eq_true_iff

/-- What a request needs to fit does not look at the queue, the last results or the flags. -/
theorem fitsAt_grantHead (s : State) (rest : List Request) (q : Request) (chs : Four Channel) (r : Request) :
    fitsAt (grantHead q (setRequests rest s)) chs r ↔ fitsAt s chs r := Iff.rfl

/-- A re-check that finds no head that fits leaves the state as it is. -/
theorem headsGranted_none (s : State) (h : ∀ r rest, s.demand.requests = r :: rest → ¬fitsAt s s.outputs.channels r) :
    HeadsGranted s s :=
  ⟨[], s.demand.requests, rfl, rfl, fun before r after hs => by simp at hs, h⟩

theorem recheckHeads_grants : ∀ (fuel : Nat) (s : State), s.demand.requests.length ≤ fuel →
    HeadsGranted s (recheckHeads fuel s)
  | 0, s, h => by
    have none : s.demand.requests = [] := List.length_eq_zero_iff.mp (Nat.le_zero.mp h)
    exact headsGranted_none s fun r rest hr => by simp [none] at hr
  | fuel + 1, s, h => by
    unfold recheckHeads
    split
    case h_1 none => exact headsGranted_none s fun r rest hr => by simp [none] at hr
    case h_2 r rest queue =>
      split
      case isTrue fits =>
        obtain ⟨granted, kept, hq, ht, hfit, hnot⟩ :=
          recheckHeads_grants fuel (grantHead r (setRequests rest s)) (by
            have : (r :: rest).length ≤ fuel + 1 := queue ▸ h
            simpa [grantHead, writeResult, onChannel, setRequests, raise] using this)
        have split' : rest = granted ++ kept := hq
        refine ⟨r :: granted, kept, by rw [queue, split']; rfl, ?_, ?_, fun q tail hk => hnot q tail hk⟩
        · rw [ht]
          by_cases hg : granted = [] <;>
            simp [hg, endedBy, raisedBy, grantHead, writeResult, onChannel, setRequests, raise, Channel.grantLocally,
              BitVec.or_assoc]
        · intro before q after hsplit
          cases before with
          | nil =>
            obtain ⟨rfl, -⟩ := List.cons.inj hsplit
            exact (fitsLocally_iff s r).mp fits
          | cons b before =>
            obtain ⟨rfl, hg⟩ := List.cons.inj hsplit
            exact hfit before q after hg
      case isFalse fits =>
        refine headsGranted_none s fun q tail hq hf => fits ?_
        obtain ⟨rfl, -⟩ := List.cons.inj (queue.symm.trans hq)
        exact (fitsLocally_iff s r).mpr hf

theorem headRecheck_grants (s : State) : HeadsGranted s (headRecheck s) :=
  recheckHeads_grants s.demand.requests.length s le_rfl

theorem standsNext_of_leavesNoExpiry (row : Instr) (s : State) (h : leavesNoExpiry s.pending = true) :
    standsNext row s = false := by
  unfold leavesNoExpiry at h
  unfold standsNext
  rcases hp : s.pending with _ | ⟨c, rest⟩
  · simp
  · rw [hp] at h
    cases c <;> simp_all [isExpiryRow]

end Sys2Proof.Machine
end

