-- ==== Sys2Proof/Laws/Rows.lean ====
section
/-! SUPPORT. What each arm of exec answers. -/

namespace Sys2Proof.Machine

theorem exec_powerOn (s : State) : exec (.powerOn) s = execPowerOn s := rfl
theorem exec_resetPinAsserted (s : State) : exec (.resetPinAsserted) s = execResetPinAsserted s := rfl
theorem exec_supplyReset (s : State) : exec (.supplyReset) s = execSupplyReset s := rfl
theorem exec_resetEnd (straps : Station) (s : State) : exec (.resetEnd straps) s = execResetEnd straps s := rfl
theorem exec_startUpEnd (s : State) : exec (.startUpEnd) s = execStartUpEnd s := rfl
theorem exec_receiverReady (s : State) : exec (.receiverReady) s = execReceiverReady s := rfl
theorem exec_receptionEnd (s : State) : exec (.receptionEnd) s = execReceptionEnd s := rfl
theorem exec_roundClose (order : CloseOrder) (s : State) : exec (.roundClose order) s = execRoundClose order s := rfl
theorem exec_leaseExpiry (row : Station) (s : State) : exec (.leaseExpiry row) s = execLeaseExpiry row s := rfl
theorem exec_retireExpiry (row : Station) (s : State) : exec (.retireExpiry row) s = execRetireExpiry row s := rfl
theorem exec_listenCountExpiry (s : State) : exec (.listenCountExpiry) s = execListenCountExpiry s := rfl
theorem exec_joinCountExpiry (s : State) : exec (.joinCountExpiry) s = execJoinCountExpiry s := rfl
theorem exec_isolationCountExpiry (s : State) : exec (.isolationCountExpiry) s = execIsolationCountExpiry s := rfl
theorem exec_askLimitExpiry (s : State) : exec (.askLimitExpiry) s = execAskLimitExpiry s := rfl
theorem exec_shareComputationCompletion (s : State) : exec (.shareComputationCompletion) s = execShareComputationCompletion s := rfl
theorem exec_deferralExpiry (s : State) : exec (.deferralExpiry) s = execDeferralExpiry s := rfl
theorem exec_collision (s : State) : exec (.collision) s = execCollision s := rfl
theorem exec_transmitComplete (s : State) : exec (.transmitComplete) s = execTransmitComplete s := rfl
theorem exec_lineWatchExpiry (s : State) : exec (.lineWatchExpiry) s = execLineWatchExpiry s := rfl
theorem exec_periodStart (s : State) : exec (.periodStart) s = execPeriodStart s := rfl
theorem exec_onCountEnd (channel : Chan) (s : State) : exec (.onCountEnd channel) s = execOnCountEnd channel s := rfl
theorem exec_conversionPass (s : State) : exec (.conversionPass) s = execConversionPass s := rfl
theorem exec_conversionComplete (raw : BitVec 10) (trip : TripTaking) (s : State) : exec (.conversionComplete raw trip) s = execConversionComplete raw trip s := rfl
theorem exec_tripRequest (channel : Chan) (s : State) : exec (.tripRequest channel) s = execTripRequest channel s := rfl
theorem exec_submit (s : State) : exec (.submit) s = execSubmit s := rfl
theorem exec_withdraw (s : State) : exec (.withdraw) s = execWithdraw s := rfl
theorem exec_clear (s : State) : exec (.clear) s = execClear s := rfl
theorem exec_forget (s : State) : exec (.forget) s = execForget s := rfl
theorem exec_park (s : State) : exec (.park) s = execPark s := rfl
theorem exec_rejoin (s : State) : exec (.rejoin) s = execRejoin s := rfl
theorem exec_storeWrite (s : State) : exec (.storeWrite) s = execStoreWrite s := rfl
theorem exec_restart (s : State) : exec (.restart) s = execRestart s := rfl
theorem exec_refusedUnknown (code : Byte) (s : State) : exec (.refusedUnknown code) s = execRefusedUnknown code s := rfl
theorem exec_writeOperationDone (s : State) : exec (.writeOperationDone) s = execWriteOperationDone s := rfl
theorem exec_writeTimeout (s : State) : exec (.writeTimeout) s = execWriteTimeout s := rfl
theorem exec_supplyLow (below : Bool) (s : State) : exec (.supplyLow below) s = execSupplyLow below s := rfl
theorem exec_storeKey (value : Byte) (s : State) : exec (.storeKey value) s = execStoreKey value s := rfl
theorem exec_rawEvents (value : Byte) (s : State) : exec (.rawEvents value) s = execRawEvents value s := rfl
theorem exec_en (value : Byte) (s : State) : exec (.en value) s = execEn value s := rfl
theorem exec_registerWrite (value : Byte) (s : State) : exec (.registerWrite value) s = execRegisterWrite value s := rfl
theorem exec_readLatch (s : State) : exec (.readLatch) s = execReadLatch s := rfl
theorem exec_transactionStart (s : State) : exec (.transactionStart) s = execTransactionStart s := rfl
theorem exec_addressByte (value : Byte) (s : State) : exec (.addressByte value) s = execAddressByte value s := rfl
theorem exec_transactionEnd (s : State) : exec (.transactionEnd) s = execTransactionEnd s := rfl
theorem exec_startBitConfirmed (dominant : Bool) (s : State) : exec (.startBitConfirmed dominant) s = execStartBitConfirmed dominant s := rfl
theorem exec_characterSlotEnd (value : Byte) (stopRecessive : Bool) (staysDominant : Bool) (s : State) : exec (.characterSlotEnd value stopRecessive staysDominant) s = execCharacterSlotEnd value stopRecessive staysDominant s := rfl
theorem exec_synchronisingTransition (s : State) : exec (.synchronisingTransition) s = execSynchronisingTransition s := rfl

end Sys2Proof.Machine
end

