-- ==== Sys2Proof/Laws/StartUp.lean ====
section
/-! SUPPORT. The record walk of start-up finds exactly what the record list by address holds, and the fields of its two
records stand in the store's bytes. -/

namespace Sys2Proof.Machine

theorem Memory.readRun_length (cells : List Host.Cell) : ∀ n p, (Memory.readRun cells p n).length = n
  | 0, _ => rfl
  | n + 1, p => by simp [Memory.readRun, Memory.readRun_length cells n]

theorem Memory.readRun_take (cells : List Host.Cell) : ∀ n k p, k ≤ n →
    (Memory.readRun cells p n).take k = Memory.readRun cells p k
  | _, 0, _, _ => by simp [Memory.readRun]
  | 0, k + 1, _, h => absurd h (by omega)
  | n + 1, k + 1, p, h => by
    simp only [Memory.readRun, List.take_succ_cons]
    rw [Memory.readRun_take cells n k (p + 1) (by omega)]

theorem Memory.readRun_drop (cells : List Host.Cell) : ∀ n k p,
    (Memory.readRun cells p n).drop k = Memory.readRun cells (p + k) (n - k)
  | _, 0, _ => by simp
  | 0, k + 1, _ => by simp [Memory.readRun]
  | n + 1, k + 1, p => by
    simp only [Memory.readRun, List.drop_succ_cons]
    rw [Memory.readRun_drop cells n k (p + 1)]
    congr 1 <;> omega

theorem Memory.readRun_getD (cells : List Host.Cell) : ∀ n p k, k < n →
    (Memory.readRun cells p n).getD k 0 = Memory.read cells (p + k)
  | 0, _, _, h => absurd h (by omega)
  | n + 1, p, 0, _ => rfl
  | n + 1, p, k + 1, h => by
    have := Memory.readRun_getD cells n (p + 1) k (by omega)
    simp only [Memory.readRun, List.getD_cons_succ, this]
    congr 1
    omega

/-- The records of a list taken one after another: a CIRCUIT or STATION record of another length, or a second one,
fails. -/
def absorb (cells : List Host.Cell) : List StoreRecord → Records → Option Records
  | [], found => some found
  | r :: rs, found =>
    if r.tag = 1 then
      if r.length = 8 ∧ found.circuit = none then
        absorb cells rs { found with circuit := some (Memory.readRun cells r.value 8) }
      else none
    else if r.tag = 2 then
      if r.length = 34 ∧ found.station = none then
        absorb cells rs { found with station := some (Memory.readRun cells r.value 34) }
      else none
    else absorb cells rs found

theorem byte_eq_iff (b : Byte) (n : Nat) (h : n < 256) : b = BitVec.ofNat 8 n ↔ b.toNat = n := by
  rw [BitVec.toNat_eq, BitVec.toNat_ofNat, Nat.mod_eq_of_lt h]

theorem Memory.readRun_two (cells : List Host.Cell) (p k : Nat) :
    Memory.readRun cells p (k + 1 + 1)
      = Memory.read cells p :: Memory.read cells (p + 1) :: Memory.readRun cells (p + 2) k := rfl

/-- One record of the walk, with its tag and length as numbers. -/
theorem walkRecords_record (fuel : Nat) (tag len : Byte) (after : List Byte) (found : Records) (h : tag ≠ 0xFF) :
    walkRecords (fuel + 1) (tag :: len :: after) found =
      if after.length < len.toNat then none
      else if tag.toNat = 1 then
        if len.toNat = 8 ∧ found.circuit = none then
          walkRecords fuel (after.drop len.toNat) { found with circuit := some (after.take len.toNat) }
        else none
      else if tag.toNat = 2 then
        if len.toNat = 34 ∧ found.station = none then
          walkRecords fuel (after.drop len.toNat) { found with station := some (after.take len.toNat) }
        else none
      else walkRecords fuel (after.drop len.toNat) found := by
  rw [walkRecords, if_neg (show ¬tag = 255#8 from h)]
  simp only [byte_eq_iff tag 1 (by omega), byte_eq_iff tag 2 (by omega), byte_eq_iff len 8 (by omega),
    byte_eq_iff len 34 (by omega)]

theorem walkRecords_of_list {cells : List Host.Cell} {stop p : Nat} {rs : List StoreRecord}
    (h : RecordList cells stop p rs) : p ≤ stop → ∀ fuel found, stop - p ≤ fuel →
    walkRecords fuel (Memory.readRun cells p (stop - p)) found = absorb cells rs found := by
  induction h with
  | areaEnds => intro _ fuel found _; rw [Nat.sub_self]; cases fuel <;> rfl
  | @tagEnds p lt tag =>
    intro _ fuel found hf
    obtain ⟨k, hk⟩ : ∃ k, stop - p = k + 1 := ⟨stop - p - 1, by omega⟩
    obtain ⟨g, rfl⟩ : ∃ g, fuel = g + 1 := ⟨fuel - 1, by omega⟩
    rw [hk]
    simp [Memory.readRun, walkRecords, tag, absorb]
  | @record p rs lt tag fits _ ih =>
    intro _ fuel found hf
    obtain ⟨k, hk⟩ : ∃ k, stop - p = k + 1 + 1 := ⟨stop - p - 2, by omega⟩
    obtain ⟨g, rfl⟩ : ∃ g, fuel = g + 1 := ⟨fuel - 1, by omega⟩
    have hle : (Memory.read cells (p + 1)).toNat ≤ k := by omega
    have hnext : k - (Memory.read cells (p + 1)).toNat = stop - (p + 2 + (Memory.read cells (p + 1)).toNat) := by omega
    have step := fun f => ih fits g f (by omega)
    rw [hk, Memory.readRun_two, walkRecords_record g _ _ _ _ tag, Memory.readRun_length, if_neg (Nat.not_lt.mpr hle),
      Memory.readRun_drop, hnext, Memory.readRun_take cells _ _ _ hle, absorb]
    simp only [step]
    split
    · split
      · rename_i h8; rw [h8.1]
      · rfl
    · split
      · split
        · rename_i h34; rw [h34.1]
        · rfl
      · rfl

theorem list_of_walkRecords {cells : List Host.Cell} : ∀ fuel n p found r, n ≤ fuel →
    walkRecords fuel (Memory.readRun cells p n) found = some r → ∃ rs, RecordList cells (p + n) p rs
  | _, 0, p, _, _, _, _ => ⟨[], .areaEnds⟩
  | 0, n + 1, _, _, _, h, _ => absurd h (by omega)
  | fuel + 1, n + 1, p, found, r, hf, h => by
    by_cases tag : Memory.read cells p = 0xFF
    · exact ⟨[], .tagEnds (by omega) tag⟩
    · cases n with
      | zero => simp [Memory.readRun, walkRecords, show ¬Memory.read cells p = 255#8 from tag] at h
      | succ k =>
        rw [Memory.readRun_two, walkRecords_record fuel _ _ _ _ tag, Memory.readRun_length, Memory.readRun_drop] at h
        by_cases hlen : k < (Memory.read cells (p + 1)).toNat
        · simp [hlen] at h
        · rw [if_neg hlen] at h
          have go : ∀ f, walkRecords fuel
              (Memory.readRun cells (p + 2 + (Memory.read cells (p + 1)).toNat)
                (k - (Memory.read cells (p + 1)).toNat)) f = some r →
              ∃ rs, RecordList cells (p + (k + 1 + 1)) p rs := by
            intro f hw
            obtain ⟨rs, hrs⟩ := list_of_walkRecords fuel _ _ f r (by omega) hw
            have e : p + 2 + (Memory.read cells (p + 1)).toNat + (k - (Memory.read cells (p + 1)).toNat)
                = p + (k + 1 + 1) := by omega
            rw [e] at hrs
            exact ⟨_, RecordList.record (rs := rs) (by omega) tag (by omega) hrs⟩
          split at h
          · split at h
            · exact go _ h
            · exact absurd h (by simp)
          · split at h
            · split at h
              · exact go _ h
              · exact absurd h (by simp)
            · exact go _ h

/-- What the records of a list leave, by which of the two were found before. -/
theorem absorb_eq_some (cells : List Host.Cell) : ∀ (rs : List StoreRecord) (found : Records) (a b : List Byte),
    absorb cells rs found = some { circuit := some a, station := some b } ↔
      (match found.circuit with
        | some x => rs.filter (fun r => decide (r.tag = 1)) = [] ∧ x = a
        | none => ∃ v, rs.filter (fun r => decide (r.tag = 1)) = [{ tag := 1, length := 8, value := v }]
            ∧ Memory.readRun cells v 8 = a)
      ∧ (match found.station with
        | some x => rs.filter (fun r => decide (r.tag = 2)) = [] ∧ x = b
        | none => ∃ v, rs.filter (fun r => decide (r.tag = 2)) = [{ tag := 2, length := 34, value := v }]
            ∧ Memory.readRun cells v 34 = b)
  | [], ⟨c, s⟩, a, b => by cases c <;> cases s <;> simp [absorb]
  | ⟨tag, length, value⟩ :: rs, ⟨c, s⟩, a, b => by
    by_cases h1 : tag = 1
    · subst h1
      by_cases h8 : length = 8 <;> cases c <;> simp [absorb, h8, absorb_eq_some cells rs, and_assoc]
    · by_cases h2 : tag = 2
      · subst h2
        by_cases h34 : length = 34 <;> cases s <;> simp [absorb, h34, absorb_eq_some cells rs, and_assoc]
      · simp [absorb, h1, h2, absorb_eq_some cells rs]

/-- The record walk of start-up finds the two records exactly when the area holds them (R141). -/
theorem walkRecords_eq_some (cells : List Host.Cell) (length : Nat) (a b : List Byte) :
    walkRecords length (Memory.readRun cells 4 length) { circuit := none, station := none }
        = some { circuit := some a, station := some b }
      ↔ ∃ ci st, StoreRecords cells length ci st ∧ Memory.readRun cells ci 8 = a ∧ Memory.readRun cells st 34 = b := by
  have list := fun rs (h : RecordList cells (4 + length) 4 rs) =>
    walkRecords_of_list h (by omega) length { circuit := none, station := none } (by omega)
  simp only [Nat.add_sub_cancel_left] at list
  constructor
  · intro h
    obtain ⟨rs, hrs⟩ := list_of_walkRecords length length 4 _ _ le_rfl h
    rw [list rs hrs, absorb_eq_some] at h
    obtain ⟨⟨ci, h1, ha⟩, st, h2, hb⟩ := h
    exact ⟨ci, st, ⟨rs, hrs, h1, h2⟩, ha, hb⟩
  · rintro ⟨ci, st, ⟨rs, hrs, h1, h2⟩, ha, hb⟩
    rw [list rs hrs, absorb_eq_some]
    exact ⟨⟨ci, h1, ha⟩, st, h2, hb⟩

/-! ### The fields of a record, by address (R165) -/

theorem field8_readRun (cells : List Host.Cell) {n : Nat} (p : Nat) {k : Nat} (h : k < n) :
    field8 (Memory.readRun cells p n) k = (Memory.read cells (p + k)).toNat := by
  unfold field8; rw [Memory.readRun_getD cells n p k h]

theorem field16_readRun (cells : List Host.Cell) {n : Nat} (p : Nat) {k : Nat} (h : k + 1 < n) :
    field16 (Memory.readRun cells p n) k = storeWord cells (p + k) := by
  unfold field16 storeWord halfOf
  rw [Memory.readRun_getD cells n p k (by omega), Memory.readRun_getD cells n p (k + 1) h]
  show ((Memory.read cells (p + (k + 1)) ++ Memory.read cells (p + k) : BitVec 16)).toNat = _
  rw [BitVec.toNat_append, Nat.shiftLeft_eq, Nat.mul_comm]
  have := Nat.two_pow_add_eq_or_of_lt (Memory.read cells (p + k)).isLt (Memory.read cells (p + (k + 1))).toNat
  simp only [Nat.add_assoc]
  omega

end Sys2Proof.Machine
end

