-- ==== Sys2Proof/WellFormed.lean ====
section
/-! DEFINITION. Which commands can spell an event of their row. -/

namespace Sys2Proof

/-- A command is well formed when its operands can occur together: REFUSED_UNKNOWN carries no command code
(R154, Table 11-8), and a line that sampled recessive at the stop bit has not stayed dominant from it (R1). -/
def Instr.wellFormed : Instr → Bool
  | .refusedUnknown code => code == 0 || decide (8 < code.toNat)
  | .characterSlotEnd _ stopRecessive staysDominant => !(stopRecessive && staysDominant)
  | .powerOn | .resetPinAsserted | .supplyReset | .resetEnd _ | .startUpEnd => true
  | .receiverReady | .receptionEnd | .roundClose _ | .leaseExpiry _ | .retireExpiry _ => true
  | .listenCountExpiry | .joinCountExpiry | .isolationCountExpiry | .askLimitExpiry => true
  | .shareComputationCompletion | .deferralExpiry | .collision | .transmitComplete | .lineWatchExpiry => true
  | .periodStart | .onCountEnd _ | .conversionPass | .conversionComplete _ _ | .tripRequest _ => true
  | .submit | .withdraw | .clear | .forget | .park | .rejoin | .storeWrite | .restart => true
  | .writeOperationDone | .writeTimeout | .supplyLow _ => true
  | .storeKey _ | .rawEvents _ | .en _ | .registerWrite _ | .readLatch => true
  | .transactionStart | .addressByte _ | .transactionEnd => true
  | .startBitConfirmed _ | .synchronisingTransition => true

end Sys2Proof
end

