-- ==== Sys2Proof/Tests/Slice0.lean ====
section
/-! SUPPORT. The model's own tests: ill-formed commands, the manual's worked numbers, and for each obligation with
hypotheses a concrete case that meets them. -/

namespace Sys2Proof.Tests

open Sys2Proof.Machine

set_option Elab.async false

/-! ### WellFormed refuses each ill-formed command -/

theorem test_a_command_code_is_no_unknown_byte :
    (Instr.refusedUnknown 1).wellFormed = false ∧ (Instr.refusedUnknown 8).wellFormed = false
      ∧ (Instr.refusedUnknown 0).wellFormed = true ∧ (Instr.refusedUnknown 9).wellFormed = true := by decide

theorem test_a_recessive_stop_bit_has_not_stayed_dominant :
    (Instr.characterSlotEnd 0 true true).wellFormed = false
      ∧ (Instr.characterSlotEnd 0 false true).wellFormed = true := by decide

/-! ### The states the tests stand on -/

/-- A MEMBER with station number 5 on a quiet line, with capacity 300 and floor 40. -/
def bench : State :=
  { State.reset with
    phase := .running
    line := { LineInterface.reset with receiver := .ready, transmitter := .idle }
    member := { Membership.reset with state := .member }
    outputs := { channels := Four.same Channel.reset, running := true }
    config := { Configuration.reset with
      budget := 320, reserve := 20, lease := 3, retire := 4, isolation := 4, floor := 40, askLimit := 4, tripCount := 3
      entries := Four.same { rating := 100, max := 100, scale := 200, tolerance := 5 } }
    store := { State.reset.store with station := 5, supplyLow := false } }

def inState (st : StationState) (s : State) : State := { s with member := { s.member with state := st } }

/-- A write transaction stands at an address. -/
def writingAt (a : BitVec 7) (s : State) : State := { s with port := { s.port with link := .writing a } }

/-- The CLAIM of the example in R162, with a heard mask, a digest and a circuit code of 0. -/
def claim60 : ClaimBody :=
  { held := 60, floor := 60, priority := 5, joining := false, isolated := false, hold := false, shortfall := false
    heard := 0, digest := 0, code := 0, ask := some { amount := 30, priority := 5, tag := 7 } }

/-- The bytes of a frame stand heard in the receive assembly buffer. -/
def heardFrame (f : Frame) (s : State) : State := { s with line := { s.line with reception := some f.heard } }

def sending (f : Frame) (s : State) : State := { s with line := { s.line with transmitter := .sending f } }

def withRow (n : Station) (r : Row) (s : State) : State := { s with peers := Sixteen.set s.peers n r }

def liveRow (held floor : Nat) (priority : Priority) (ask : Option Ask) : Row :=
  { Row.cleared with state := .live, received := true, held := held, floor := floor, priority := priority, ask := ask }

def committing (level : Nat) (priority : Priority) (ch : Channel) : Channel :=
  { ch with committed := level, applied := level, priority := priority }

/-- Channel 0 is committed and applied at 40. -/
def drawing40 : State :=
  { bench with outputs := { bench.outputs with channels := bench.outputs.channels.set 0 (committing 40 3 Channel.reset) } }

def request (c : Chan) (target : Nat) : Request :=
  { channel := c, target := target, priority := 5, tag := 9, age := 0, arrival := 0 }

def queued (rs : List Request) (s : State) : State :=
  { s with demand := { s.demand with requests := rs, nextArrival := rs.length } }

def params (select : Byte) (target : Half) (priority : Byte) (s : State) : State :=
  { s with port := { s.port with paramSelect := select, paramTarget := target, paramPriority := priority } }

def inFlight (s : State) : State := { s with share := { s.share with flight := some 0 } }

def ownRecord : OwnRecord := { body := claim60, sequence := 1, completed := false }

/-- The own ask of 30 was granted at the close before, and its CLAIM completed in the round. -/
def aboutToCommit : State :=
  inFlight (queued [request 1 70]
    { drawing40 with
      share := { drawing40.share with
        own := some ownRecord
        snapshot := { drawing40.share.snapshot with own := some ownRecord, ownCompleted := true }
        ask := { state := .tentative, tag := 7, amount := 30, priority := 5, owner := some { arrival := 0, channel := 1 }
                 grantedBefore := true } } })

/-! ### The manual's worked numbers -/

theorem test_crc_of_the_nine_digits :
    crc16 [0x31, 0x32, 0x33, 0x34, 0x35, 0x36, 0x37, 0x38, 0x39] = 0x29B1#16 := by decide +kernel

/-- The example of R162. -/
theorem test_bytes_of_the_example_claim :
    (Frame.claim 5 0 claim60).bytes.length = 19
      ∧ (Frame.claim 5 0 claim60).bytes.take 17
        = [0xB6, 0x15, 0, 0x85, 0x3C, 0, 0x3C, 0, 0, 0, 0, 0, 0, 0, 0x1E, 0, 0x57] := by decide +kernel

/-- Table 8-2. -/
theorem test_scaling_examples :
    [2, 330, 340, 360, 1023].map (fun raw => measuredOf raw 4 200) = [0, 63, 65, 69, 199] := by decide +kernel

/-- R118's example in section 7.8.1. -/
theorem test_on_counts : onCountOf 30 100 = 76 ∧ onCountOf 60 100 = 153 ∧ onCountOf 100 100 = 256 := by decide

/-- Table 7-4. -/
theorem test_cut_walk :
    (cutTo 70 ⟨committing 50 4 Channel.reset, committing 40 2 Channel.reset, committing 30 2 Channel.reset,
      Channel.reset⟩).toList.map (fun ch => (ch.committed, ch.cut))
      = [(50, false), (20, true), (0, true), (0, false)] := by decide +kernel

/-- Section 7.8.3: the isolation cut undoes a gated raise, and releases its gate. -/
theorem test_cut_undoes_a_gated_raise :
    (cutTo 40 ⟨committing 40 3 Channel.reset, { Channel.reset with committed := 30, priority := 2, gate := some 0 },
      Channel.reset, Channel.reset⟩).toList.map (fun ch => (ch.committed, ch.gate))
      = [(40, none), (0, none), (0, none), (0, none)] := by decide +kernel

/-- The snapshot of section 3.10.1 at station 5. -/
def closeK : Snapshot :=
  { rows := Sixteen.set (Sixteen.set State.reset.peers 2 (liveRow 120 40 2 none)) 9
      (liveRow 40 40 3 (some { amount := 70, priority := 3, tag := 1 }))
    own := some ownRecord, ownCompleted := true }

/-- Table 3-3. -/
theorem test_allocation_at_close_k :
    countedTotal closeK = 220 ∧ floorTotal closeK = 140 ∧ headroomOf closeK 300 = 80
      ∧ (askList 5 closeK).map (fun e => e.station) = [5, 9]
      ∧ (grantedAsks (askList 5 closeK) 80).map (fun e => e.station) = [5]
      ∧ ownGranted 5 closeK 300 = true := by decide +kernel

/-- Table 3-5 at station 2. -/
theorem test_shed_walk_at_station_two :
    (let v : Snapshot :=
       { rows := Sixteen.set (Sixteen.set (Sixteen.set State.reset.peers 5 (liveRow 90 60 5 none)) 9
           (liveRow 40 40 3 none)) 12 (liveRow 100 30 4 none)
         own := some { ownRecord with body := { claim60 with held := 120, floor := 40, priority := 2, ask := none } }
         ownCompleted := true }
     (shedList 2 v).map (fun e => (e.station, e.surplus)) = [(2, 80), (12, 70), (5, 30)]
       ∧ findsShortfall 2 v 300 = { mark := true, share := 50, residual := false }
       ∧ shedTargetOf 2 v 300 = 70) := by decide +kernel

/-- The three entries of Table 3-4 make one run of 24 bytes. -/
theorem test_digest_input_at_close_k :
    digestInput 5 closeK
      = [2, 1, 120, 0, 40, 0, 0, 0, 5, 1, 60, 0, 60, 0, 30, 0, 9, 1, 40, 0, 40, 0, 70, 0] := by decide +kernel

/-! ### A store that start-up accepts (section 9.2.1's CIRCUIT values) -/

def circuitRecord : List Byte := [0x01, 8, 0x40, 0x01, 20, 0, 0, 3, 4, 4]

def channelEntry : List Byte := [100, 0, 100, 0, 200, 0, 5]

def stationRecord : List Byte :=
  [0x02, 34, 0xFF, 40, 0, 2, 0, 3] ++ channelEntry ++ channelEntry ++ channelEntry ++ channelEntry

/-- The bytes from address 0 on as a store. -/
def storeOf : Nat → List Byte → List Host.Cell
  | _, [] => []
  | a, b :: rest => if b = 0xFF then storeOf (a + 1) rest else (a, b) :: storeOf (a + 1) rest

/-- The store whose header holds for this record area. -/
def storeWith (area : List Byte) : List Host.Cell :=
  storeOf 0 (lowFirst (half area.length) ++ lowFirst (crc16 area) ++ area)

def storeImage : List Host.Cell := storeWith (circuitRecord ++ stationRecord)

def startingUp (cells : List Host.Cell) : State :=
  { State.reset with phase := .startUp, store := { State.reset.store with cells := cells, strap := 5, station := 5 } }

theorem test_start_up_with_a_good_store :
    Memory.wf storeImage = true ∧ (startUpChecks storeImage 5).1 = .none
      ∧ (startUpChecks storeImage 5).2.map (fun l => (l.station, l.rate, l.config.capacity, l.config.floor))
        = some (5, some .b9600, 300, 40)
      ∧ (startingUp storeImage).phase = .startUp := by decide +kernel

theorem test_start_up_with_an_empty_store :
    startUpChecks (startingUp []).store.cells (startingUp []).store.strap = (.storeCrc, none)
      ∧ (startingUp []).phase = .startUp := by decide +kernel

/-- The area of a store holds the two records, with these value bytes. -/
def Holds (area circuit station : List Byte) : Prop :=
  ∃ ci st, StoreRecords (storeWith area) area.length ci st
    ∧ Memory.readRun (storeWith area) ci 8 = circuit ∧ Memory.readRun (storeWith area) st 34 = station

theorem test_the_two_records_of_the_store :
    Holds (circuitRecord ++ stationRecord) (circuitRecord.drop 2) (stationRecord.drop 2) :=
  (walkRecords_eq_some _ _ _ _).1 (by decide +kernel)

/-- The other order, with unknown records around the two, one of length 0, and bytes after the ending tag. -/
theorem test_the_two_records_among_others :
    Holds ([0x7F, 0] ++ stationRecord ++ [0, 2, 1, 8] ++ circuitRecord ++ [3, 0, 0xFF, 1])
      (circuitRecord.drop 2) (stationRecord.drop 2) :=
  (walkRecords_eq_some _ _ _ _).1 (by decide +kernel)

/-- What start-up finds in a store with this area, which stands in canonical form. -/
def FindsWithStrap5 (area : List Byte) (cause : FaultCause) (station : Option Station) : Prop :=
  Memory.wf (storeWith area) = true
    ∧ (startUpChecks (storeWith area) 5).1 = cause ∧ (startUpChecks (storeWith area) 5).2.map Loaded.station = station

/-- Areas without the two records: one record only, a second CIRCUIT, a CIRCUIT of length 7, a tag in the last byte, value
bytes past the end. -/
theorem test_areas_without_the_two_records :
    ∀ area ∈ [stationRecord, circuitRecord ++ stationRecord ++ circuitRecord,
        [1, 7] ++ circuitRecord.drop 3 ++ stationRecord, circuitRecord ++ stationRecord ++ [3],
        circuitRecord ++ stationRecord ++ [3, 2, 0]],
      FindsWithStrap5 area .storeFormat none := by
  unfold FindsWithStrap5; decide +kernel

/-- The two records with some of their bytes replaced. -/
def areaWith (budgetHigh isolation override floorLow floorHigh : Byte) : List Byte :=
  [0x01, 8, 0x40, budgetHigh, 20, 0, 0, 3, 4, isolation, 0x02, 34, override, floorLow, floorHigh] ++ stationRecord.drop 5

/-- The station number at the ends of the override's two ranges, and each cause one step beyond a limit: the override and
the budget, I + 2 against L + R = 7, and the floor against the capacity 300. -/
theorem test_start_up_causes :
    FindsWithStrap5 (areaWith 1 5 15 44 1) .none (some 15) ∧ FindsWithStrap5 (areaWith 1 5 255 44 1) .none (some 5)
      ∧ FindsWithStrap5 (areaWith 1 5 16 44 1) .valueRange none
      ∧ FindsWithStrap5 (areaWith 0x10 6 0 45 1) .valueRange none
      ∧ FindsWithStrap5 (areaWith 1 6 0 45 1) .timingConstraint none
      ∧ FindsWithStrap5 (areaWith 1 5 0 45 1) .floorRange none := by
  unfold FindsWithStrap5; decide +kernel

/-- The header's length at both ends of its range, and the same store as the other one. -/
theorem test_header_lengths :
    (Memory.read [(0, 1), (1, 0)] 0).toNat + 256 * (Memory.read [(0, 1), (1, 0)] 1).toNat = 1
      ∧ (Memory.read [(0, 220), (1, 0)] 0).toNat + 256 * (Memory.read [(0, 220), (1, 0)] 1).toNat = 220 := by decide

/-! ### Cases that meet the hypotheses of the obligations -/

theorem test_step_cases :
    ({ bench with pending := [.submit] } : State).pending = .submit :: [] ∧ bench.pending = []
      ∧ bench.line.active = true ∧ lineEventDue bench = false ∧ State.reset.line.active = false
      ∧ lineEventDue { bench with line := { bench.line with idleGap := 31 } } = false
      ∧ lineEventDue { bench with line := { bench.line with idleGap := 32 } } = true := by decide +kernel

/-- A bit time before and after the activity end of a transition in SYNCHRONISING, and the round gap at its limit. -/
theorem test_bit_time_cases :
    (let at' := fun (left gap : Nat) => match step { bench with line := { bench.line with
         receiver := .synchronising, activityLeft := left, idleGap := gap, deferralExpired := true } } with
       | .next t => [t.line.activityLeft, t.line.idleGap, t.line.syncWait]
       | _ => []
     at' 1 5 = [0, 5, 0] ∧ at' 0 83 = [0, 84, 1] ∧ at' 0 84 = [0, 84, 0]) := by decide +kernel

theorem test_commands_without_subject_receiving :
    bench.phase.held = false ∧ bench.phase ≠ .startUp ∧ bench.line.receiver ≠ .synchronising
      ∧ State.reset.line.receiver ≠ .ready ∧ bench.line.slot = none ∧ bench.line.reception = none
      ∧ State.reset.line.idle = false ∧ (Sixteen.get bench.peers 3).state ≠ .live
      ∧ (Sixteen.get bench.peers 3).state ≠ .silent := by decide +kernel

theorem test_commands_without_subject_in_the_rest :
    bench.member.state ≠ .listen ∧ bench.member.state ≠ .joining ∧ bench.member.isolationCount < bench.config.isolation
      ∧ bench.demand.requests = [] ∧ bench.share.flight = none ∧ bench.line.transmitter = .idle
      ∧ State.reset.line.active = false ∧ State.reset.outputs.running = false ∧ bench.sense.converter = .idle
      ∧ bench.store.write = none ∧ bench.port.link ≠ .writing 0x1D ∧ (writingAt 1 bench).port.link ≠ .released
      ∧ bench.port.link ≠ .awaiting := by decide +kernel

/-- Rows, a head, a trip and an on count that are there and one short of their limit. -/
theorem test_commands_before_their_limit :
    (let s := withRow 1 { liveRow 9 9 1 none with received := false, missed := 1 }
       (withRow 2 { Row.cleared with state := .silent, silentRounds := 2 } (queued [{ request 1 70 with age := 3 }] bench))
     (Sixteen.get s.peers 1).missed + 1 < s.config.lease ∧ (Sixteen.get s.peers 2).silentRounds + 1 < s.config.retire
       ∧ s.demand.requests = { request 1 70 with age := 3 } :: [] ∧ 3 < s.config.askLimit
       ∧ (s.sense.channels.get 1).overdrawCount < s.config.tripCount ∧ (s.outputs.channels.get 1).onCount = 0
       ∧ ({ s.line with deferralExpired := true } : LineInterface).deferralExpired = true
       ∧ 1 ≤ (8 : Byte).toNat ∧ (8 : Byte).toNat ≤ 8) := by decide +kernel

theorem test_reset_cases : bench.phase.held = false ∧ State.reset.phase.held = true := by decide

theorem test_receiver_cases :
    ({ bench with line := { bench.line with receiver := .synchronising } } : State).line.receiver = .synchronising
      ∧ bench.line.receiver = .ready ∧ bench.line.slot = none
      ∧ (List.replicate 18 (0 : Byte)).length < 19 ∧ 19 ≤ (List.replicate 19 (0 : Byte)).length := by decide

/-- An open slot with a reception in progress: a slot end closes it and keeps the own-echo mark, and one whose dominant stop
bit stays opens the next slot, which clears it. -/
theorem test_an_open_slot_with_a_reception :
    (let begun : Reception := { bytes := [0xB6], overlong := false, framingError := false, expected := none }
     let s := { bench with line := { bench.line with slot := some 9, ownEcho := true, reception := some begun } }
     s.line.slot = some 9 ∧ s.line.reception.map (fun r => r.bytes.length) = some 1
       ∧ [(true, false), (false, true)].map (fun x => match exec (.characterSlotEnd 0x15 x.1 x.2) s with
         | .next t => (t.line.slot, t.line.ownEcho, t.line.reception.map fun r => r.bytes)
         | _ => (none, false, none))
         = [(none, true, some [0xB6, 0x15]), (some 0, false, some [0xB6, 0x15])]) := by decide +kernel

theorem test_reception_cases :
    judge { (Frame.claim 2 0 claim60).heard with framingError := true } = none
      ∧ judge (Frame.claim 2 0 claim60).heard = some (.claim 2 0 claim60)
      ∧ (heardFrame (.claim 2 0 claim60) bench).line.slot = none
      ∧ (heardFrame (.claim 2 0 claim60) bench).line.ownEcho = false
      ∧ (Frame.claim 2 0 claim60).heard.expected = expectedLength (Frame.claim 2 0 claim60).heard.bytes
      ∧ (2 : Station) ≠ bench.store.station ∧ bench.member.state ≠ .isolated := by decide +kernel

/-- R4's conditions 6 and 7 each on its own. -/
theorem test_a_wrong_check_value_and_a_wrong_range_are_discarded :
    judge { (Frame.leave 2 0 0).heard with bytes := [0xB6, 0x22, 0, 0, 0, 0, 0] } = none
      ∧ judge (Frame.claim 2 0 { claim60 with held := 4096 }).heard = none := by decide +kernel

theorem test_confirming_cases :
    (inState .isolated bench).member.state = .isolated
      ∧ judge (Frame.claim 2 0 { claim60 with heard := 0x0020 }).heard = some (.claim 2 0 { claim60 with heard := 0x0020 })
      ∧ (0x0020 : Half).getLsbD bench.store.station.toNat = true
      ∧ ¬claim60.heard.getLsbD bench.store.station.toNat = true ∧ claim60.code = bench.config.circuitCode := by
  decide +kernel

theorem test_leave_cases :
    judge (Frame.leave 2 0 0).heard = some (.leave 2 0 0)
      ∧ (∃ m, (Sixteen.get (withRow 2 (liveRow 9 9 1 none) bench).peers m).state ≠ .absent)
      ∧ (∀ m, (Sixteen.get (Sixteen.set (withRow 2 (liveRow 9 9 1 none) bench).peers 2 Row.cleared) m).state = .absent)
      ∧ (∀ m, (Sixteen.get (inState .isolated bench).peers m).state = .absent) := by
  decide +kernel

theorem test_duplicate_cases :
    judge (Frame.leave 5 0 0).heard = some (.leave 5 0 0) ∧ (Frame.leave 5 0 0).source = bench.store.station
      ∧ (inState .fault bench).member.state = .fault ∧ bench.member.state ≠ .fault
      ∧ queueInOrder (queued [request 1 70] bench) = true := by decide +kernel

theorem test_frames_at_the_ends_of_their_ranges :
    (Frame.claim 0 0 { claim60 with held := 4095, floor := 0, ask := some ⟨1, 0, 0⟩ }).wellFormed = true
      ∧ (Frame.claim 15 255 { claim60 with held := 0, floor := 4095, ask := some ⟨4095, 7, 15⟩ }).wellFormed = true
      ∧ (Frame.claim 15 255 { claim60 with joining := true, isolated := true }).wellFormed = false := by decide +kernel

/-- Rows one close short of their limit, and rows that the close brings to it. -/
theorem test_aging_cases :
    (let unheard := fun (n : Nat) => { liveRow 9 9 1 none with received := false, missed := n }
     let silent := fun (n : Nat) => { Row.cleared with state := .silent, silentRounds := n }
     let rows := fun s : State => [1, 2, 3, 4].map fun n => (Sixteen.get s.peers n).age s.config.lease s.config.retire
     let s := withRow 1 (unheard 1) (withRow 2 (unheard 2) (withRow 3 (silent 2) (withRow 4 (silent 3) bench)))
     s.line.idle = true ∧ (Sixteen.get s.peers 2).agedAhead = false
       ∧ (rows s).map (fun r => r.state) = [.live, .silent, .silent, .retired]) := by decide +kernel

/-- LEASE_EXPIRY acts only where its close stands next, behind aging rows alone. -/
theorem test_an_aging_row_needs_its_close :
    (let s := fun cs => { withRow 2 { liveRow 9 9 1 none with received := false, missed := 2 } bench with pending := cs }
     let after := fun cs => match exec (.leaseExpiry 2) (s cs) with
       | .next t => decide ((Sixteen.get t.peers 2).state = .silent)
       | _ => false
     [[.roundClose .apart], [.retireExpiry 3, .roundClose .ageFirst], [.forget, .roundClose .ageFirst], []].map after
       = [true, true, false, false]) := by decide +kernel

theorem test_lease_and_retire_cases :
    (Sixteen.get (withRow 2 { liveRow 9 9 1 none with received := false, missed := 2 } bench).peers 2).state = .live
      ∧ bench.config.lease ≤ (Sixteen.get (withRow 2 { liveRow 9 9 1 none with missed := 2 } bench).peers 2).missed + 1
      ∧ (Sixteen.get (withRow 2 { Row.cleared with state := .silent, silentRounds := 3 } bench).peers 2).state = .silent
      ∧ bench.config.retire
        ≤ (Sixteen.get (withRow 2 { Row.cleared with state := .silent, silentRounds := 3 } bench).peers 2).silentRounds + 1 := by
  decide +kernel

theorem test_count_cases :
    (inState .listen bench).member.listenCount ≤ bench.config.lease ∧ (inState .joining bench).member.joinCount < 2
      ∧ bench.member.isolationCount + 1 < bench.config.isolation ∧ 3 + 1 = bench.config.isolation
      ∧ (∀ r, bench.demand.requests.head? = some r → bench.config.askLimit = 0 ∨ r.age < bench.config.askLimit) := by
  refine ⟨by decide, by decide, by decide, by decide, ?_⟩
  intro r h
  exact absurd h (by simp [bench, State.reset, DemandQueue.reset])

/-- A close whose expiry rows stand behind it in the queue: no count stands at its limit before it, and one does after. -/
theorem test_apart_cases :
    (let member := { bench with member := { bench.member with isolationCount := 3 }
                                pending := [.isolationCountExpiry, .askLimitExpiry] }
     let close := exec (.roundClose .apart) (withRow 2 (liveRow 9 9 1 none) member)
     let joining := { inState .joining bench with member := { bench.member with state := .joining, joinCount := 1 }
                                                  pending := [.joinCountExpiry] }
     let listen := { bench with member := { bench.member with state := .listen, listenCount := 3 }
                                pending := [.listenCountExpiry] }
     noExpiryWaits member = true ∧ noExpiryWaits joining = true ∧ noExpiryWaits listen = true
       ∧ (match close with
         | .next t => decide (t.member.state = .member ∧ t.member.isolationCount = 4)
         | _ => false) = true
       ∧ isExpiryRow .isolationCountExpiry = true ∧ isExpiryRow .submit = false) := by decide +kernel

/-- A MEMBER at its last unheard round, whose ask was granted at the close before: its own CLAIM completed, and a SILENT
row is all it knows of its peers. -/
def aboutToIsolate : State :=
  withRow 2 { Row.cleared with state := .silent, held := 9, floor := 9 } { aboutToCommit with
    member := { aboutToCommit.member with isolationCount := 3 }
    share := { aboutToCommit.share with own := some { ownRecord with completed := true }, flight := none }
    pending := [.shareComputationCompletion, .isolationCountExpiry] }

/-- R89, the completion first: the commit raises channel 1 to 70, and the cut takes the total back to 40. -/
theorem test_a_commit_before_the_isolation_of_its_close :
    aboutToIsolate.line.idle = true ∧ aboutToIsolate.member.isolationCount < aboutToIsolate.config.isolation
      ∧ (match exec (.roundClose .apart) aboutToIsolate with
        | .next t => match exec .shareComputationCompletion t with
          | .next u => match exec .isolationCountExpiry u with
            | .next v => decide (t.member.isolationCount = 4 ∧ (u.outputs.channels.get 1).committed = 70
                ∧ u.member.state = .member ∧ v.member.state = .isolated ∧ committedTotal v.outputs.channels = 40
                ∧ (v.demand.lastResults.get 1).code = .granted)
            | _ => false
          | _ => false
        | _ => false) = true
      ∧ leavesNoExpiry aboutToIsolate.pending = false ∧ leavesNoExpiry [.shareComputationCompletion, .submit] = true := by
  decide +kernel

theorem test_a_head_at_its_limit :
    (let s := queued [{ request 1 70 with age := 3 }] bench
     noExpiryWaits s = true ∧ s.demand.requests = { request 1 70 with age := 3 } :: []
       ∧ s.config.askLimit ≤ min (3 + 1) 255 ∧ 0 < s.config.isolation) := by decide +kernel

theorem test_a_round_that_isolates :
    (let s := withRow 2 (liveRow 9 9 1 none) { bench with member := { bench.member with isolationCount := 3 } }
     s.line.idle = true
       ∧ (match exec (.roundClose .stateFirst) s with
         | .next t => decide (t.member.state = .isolated)
         | _ => false) = true) := by decide +kernel

/-- A close that isolates a station drawing 40 with a floor of 10 cuts and sets SHED; nothing leaves the queue. -/
theorem test_a_round_that_isolates_with_a_cut :
    (let s := { aboutToIsolate with config := { aboutToIsolate.config with floor := 10 }, pending := [] }
     noExpiryWaits s = true
       ∧ [CloseOrder.ageFirst, .stateFirst, .apart].all (fun order => match exec (.roundClose order) s with
         | .next t => decide (t.member.state = .isolated ∧ committedTotal t.outputs.channels = 10
             ∧ flagSet .shed t = true ∧ flagSet .result t = false ∧ t.share.ask.state = .none)
         | _ => false) = true) := by decide +kernel

/-- A close by which an ISOLATED station returns: one head fits the bound of 60 and is granted, and the next ages where the
station state changes first. -/
theorem test_a_round_that_returns_to_member :
    (let s := queued [request 1 20, request 2 20] (inState .isolated
       { drawing40 with share := { drawing40.share with own := some ownRecord } })
     noExpiryWaits s = true
       ∧ [CloseOrder.ageFirst, .stateFirst, .apart].map (fun order => match exec (.roundClose order) s with
         | .next t => if t.member.state = .member ∧ (t.outputs.channels.get 1).committed = 20 ∧ flagSet .result t = true
             then t.demand.requests.map Request.age else []
         | _ => []) = [[0], [1], [0]]) := by decide +kernel

theorem test_reached_count_cases :
    bench.config.lease + 1 ≤ 4 ∧ bench.config.isolation ≤ 4 ∧ 0 < bench.config.askLimit
      ∧ bench.config.askLimit ≤ ({ request 1 70 with age := 4 } : Request).age
      ∧ (queued [request 1 70] bench).demand.requests = request 1 70 :: []
      ∧ ({ bench with member := { bench.member with isolationCount := 4 } } : State).member.state = .member
      ∧ bench.config.isolation
        ≤ ({ bench with member := { bench.member with isolationCount := 4 } } : State).member.isolationCount := by
  decide +kernel

theorem test_an_expiry_row_answers : ∃ t, exec (.leaseExpiry 2) bench = .next t := ⟨_, rfl⟩

theorem test_counted_rows :
    (liveRow 0 60 5 none).state = .live ∧ (liveRow 0 60 5 none).held = 0 ∧ (liveRow 0 60 5 none).counted = 60
      ∧ ({ liveRow 90 60 5 none with state := .retired } : Row).counted = 60 ∧ Row.cleared.counted = 0
      ∧ Sixteen.get (withRow 2 (liveRow 0 60 5 none) bench).peers 2 = liveRow 0 60 5 none := by decide +kernel

theorem test_the_largest_digest_entry :
    (255 < 256) ∧ (65535 < 65536)
      ∧ (digestEntry 15 255 65535 65535 65535).map BitVec.toNat = [15, 255, 255, 255, 255, 255, 255, 255] := by
  decide +kernel

theorem test_completion_cases :
    (inFlight bench).share.flight.isSome = true ∧ (inFlight bench).line.deferralExpired = false
      ∧ bench.share.ask.state = .none ∧ aboutToCommit.share.ask.state ≠ .none := by decide +kernel

/-- An attempt that waited for the completion, and one that a REJOIN holds back. -/
theorem test_waiting_attempt_cases :
    (let s := inFlight { bench with line := { bench.line with deferralExpired := true } }
     let held := inState .joining { s with line := { s.line with awaitsExpiry := true } }
     s.line.deferralExpired = true ∧ s.line.awaitsExpiry = false ∧ s.line.idle = true ∧ s.member.state = .member
       ∧ s.line.sentThisRound = false ∧ s.line.attempts < 3
       ∧ s.line.transmitter = .idle ∧ held.line.awaitsExpiry = true
       ∧ [s, held].map (fun s => match exec .shareComputationCompletion s with
           | .next t => decide (t.line.transmitter = .idle)
           | _ => true) = [false, true]) := by decide +kernel

/-- The allocation of Table 3-3 as the statements say it: the own ask of 30 before station 9's ask of 70. -/
theorem test_sums_ahead :
    askedAhead 5 closeK.rows { amount := 30, priority := 5, tag := 7 } = 0
      ∧ askedAhead 5 closeK.rows { amount := 30, priority := 2, tag := 7 } = 70
      ∧ surplusAhead 5 closeK.rows { claim60 with held := 200, floor := 40, priority := 5 } = 80 := by decide +kernel

theorem test_commit_case :
    aboutToCommit.share.flight.isSome = true ∧ aboutToCommit.share.ask.owner = some { arrival := 0, channel := 1 }
      ∧ aboutToCommit.share.ask.grantedBefore = true ∧ aboutToCommit.share.snapshot.ownCompleted = true
      ∧ aboutToCommit.share.snapshot.own = some ownRecord
      ∧ ownRecord.body.ask = some { amount := 30, priority := 5, tag := 7 }
      ∧ ownGranted aboutToCommit.store.station aboutToCommit.share.snapshot aboutToCommit.config.capacity = true
      ∧ findsHold aboutToCommit.share.snapshot aboutToCommit.config.capacity = false
      ∧ viewAgreement aboutToCommit.share.snapshot aboutToCommit.share.carried = true
      ∧ aboutToCommit.demand.requests = request 1 70 :: []
      ∧ (queued [{ request 1 70 with arrival := 1 }] aboutToCommit).demand.requests.head?.map Request.arrival = some 1 := by
  decide +kernel

/-- The first grant of an ask makes it TENTATIVE and raises nothing (R72). -/
theorem test_a_first_grant_commits_nothing :
    (let s := { aboutToCommit with
       share := { aboutToCommit.share with ask := { aboutToCommit.share.ask with state := .waiting, grantedBefore := false } } }
     (match exec .shareComputationCompletion s with
       | .next t => decide (t.share.result.granted = true ∧ t.share.shortfall.share = 0 ∧ t.share.ask.state = .tentative
           ∧ t.outputs = s.outputs ∧ t.demand = s.demand)
       | _ => false) = true) := by decide +kernel

theorem test_shed_case :
    (let s := { aboutToCommit with
       share := { aboutToCommit.share with
         snapshot := { closeK with own := some { ownRecord with body := { claim60 with held := 200, floor := 40, priority := 1 } } } } }
     0 < (findsShortfall s.store.station s.share.snapshot s.config.capacity).share) := by decide +kernel

theorem test_deferral_cases :
    bench.line.idle = true ∧ bench.member.state = .member ∧ bench.line.sentThisRound = false ∧ bench.line.attempts < 3
      ∧ bench.line.transmitter = .idle ∧ bench.share.flight = none
      ∧ (inState .listen bench).member.state = .listen ∧ (inFlight bench).share.flight.isSome = true
      ∧ leaveDue (inState .parking bench) = true ∧ leaveDue (inState .parking drawing40) = false := by decide +kernel

/-- A frame is due at two attempts, and no more at three or once sent (R10). -/
theorem test_due_limits :
    (let after := fun (attempts : Nat) (sent : Bool) =>
       match exec .deferralExpiry { bench with line := { bench.line with attempts := attempts, sentThisRound := sent } } with
       | .next t => t.line.sends
       | _ => false
     after 2 false = true ∧ after 3 false = false ∧ after 0 true = false) := by decide +kernel

/-- After a REJOIN a deferral expiry that finds no computation in flight begins the first attempt, and one that a computation
holds begins it at the completion (R12, R168). -/
theorem test_the_first_attempt_after_a_rejoin :
    (let s := inState .joining { bench with line := { bench.line with awaitsExpiry := true } }
     (match exec .deferralExpiry s with
         | .next t => t.line.sends
         | _ => false) = true
       ∧ (match exec .deferralExpiry (inFlight s) with
         | .next t => !t.line.sends && (match exec .shareComputationCompletion t with
             | .next u => u.line.sends
             | _ => false)
         | _ => false) = true) := by decide +kernel

/-- The need against what the frame announces: at the bound, and one above it. -/
theorem test_ask_cases :
    (queued [request 1 30] drawing40).demand.requests = request 1 30 :: []
      ∧ askNow (queued [request 1 0] drawing40) = none
      ∧ askNow (queued [request 1 1] drawing40) = some (request 1 1, 1) := by decide +kernel

theorem test_a_completion_with_one_request :
    (queued [request 1 20] (sending (.claim 5 1 claim60) drawing40)).line.transmitter = .sending (.claim 5 1 claim60)
      ∧ (queued [request 1 20] (sending (.claim 5 1 claim60) drawing40)).demand.requests = [request 1 20] := by
  decide +kernel

theorem test_collision_and_completion_cases :
    (sending (.claim 5 1 claim60) bench).line.transmitter = .sending (.claim 5 1 claim60)
      ∧ (sending (.leave 5 1 0) (inState .parking bench)).member.state = .parking := by decide +kernel

/-- A head that fits the completed frame's bound of 60 exactly, and one that passes it. -/
theorem test_recheck_cases :
    fitsLocally (sending (.claim 5 1 claim60) { drawing40 with share := { drawing40.share with own := some ownRecord } }) 1 20
        = true
      ∧ fitsLocally (sending (.claim 5 1 claim60) { drawing40 with share := { drawing40.share with own := some ownRecord } })
        1 21 = false := by decide +kernel

theorem test_period_cases :
    bench.outputs.running = true ∧ noTripWaits bench = true ∧ bench.sense.converter = .idle
      ∧ bench.sense.passBegun = false
      ∧ onCountOf 1 256 = 1 ∧ onCountOf 255 256 = 255 := by decide +kernel

theorem test_conversion_case :
    (let s := { bench with sense := { bench.sense with converter := .converting 3 } }
     s.sense.converter = .converting 3 ∧ noTripWaits s = true) := by decide +kernel

/-- A conversion that brings the count to K, its TRIP_REQUEST next: the pass goes on only at the trip. -/
theorem test_a_trip_that_stands_next :
    (let s := { bench with
       sense := { bench.sense with
         converter := .converting 1
         channels := bench.sense.channels.set 1 { SenseChannel.reset with overdrawCount := 2 } }
       pending := [.tripRequest 1] }
     noTripWaits s = true ∧ s.pending.head? = some (.tripRequest 1)
       ∧ (match exec (.conversionComplete 1023 .apart) s with
         | .next t => decide (t.sense.converter = .tripping 1 ∧ (t.outputs.channels.get 1).tripped = false)
         | _ => false) = true
       ∧ (match exec (.conversionComplete 1023 .apart) { s with pending := [.submit, .tripRequest 1] } with
         | .next t => decide (t.sense.converter = .converting 2 ∧ (t.outputs.channels.get 1).tripped = true)
         | _ => false) = true) := by decide +kernel

theorem test_trip_cases :
    (let s := { bench with sense := { bench.sense with
       converter := .converting 1
       channels := bench.sense.channels.set 1 { SenseChannel.reset with overdrawCount := 3 } } }
     s.sense.converter = .converting 1 ∧ (s.outputs.channels.get 1).tripped = false
       ∧ s.config.tripCount ≤ (s.sense.channels.get 1).overdrawCount ∧ noTripWaits s = false) := by decide +kernel

/-- SUBMIT at the ends of its ranges. -/
theorem test_submit_checks :
    submitRefusal (params 3 100 7 bench) = none ∧ submitRefusal (params 4 0 0 bench) = some .refusedRange
      ∧ submitRefusal (params 0 101 0 bench) = some .refusedRange
      ∧ submitRefusal (params 0 0 8 bench) = some .refusedRange
      ∧ submitRefusal (params 0 0 0 (inState .parked bench)) = some .refusedState := by decide +kernel

/-- A SUBMIT at the committed level and one above it, each with its command byte next. -/
theorem test_submit_cases :
    (let level := writingAt 0x1D (params 0 40 1 drawing40)
     let above := writingAt 0x1D (params 0 41 1 drawing40)
     level.port.link = .writing 0x1D ∧ submitRefusal level = none
       ∧ level.port.paramTarget.toNat ≤ (level.outputs.channels.get (level.port.paramSelect.setWidth 2)).committed
       ∧ above.port.link = .writing 0x1D ∧ submitRefusal above = none
       ∧ (above.outputs.channels.get (above.port.paramSelect.setWidth 2)).committed < above.port.paramTarget.toNat) := by
  decide +kernel

/-- A decrease of channel 0 to 0 under a bound of 60: the re-check grants the first two of three heads, and the third
stays (R106). -/
theorem test_a_recheck_grants_two_heads :
    (let s := writingAt 0x1D (params 0 0 1 (queued [request 1 20, request 2 20, request 3 30]
       { drawing40 with share := { drawing40.share with own := some ownRecord } }))
     boundNow s = 60
       ∧ (match exec .submit s with
         | .next t => decide (t.demand.requests = [request 3 30]
             ∧ [0, 1, 2, 3].map (fun c => (t.outputs.channels.get c).committed) = [0, 20, 20, 0])
         | _ => false) = true) := by decide +kernel

theorem test_withdraw_and_clear_cases :
    (queued [request 1 70] bench).demand.requests.find? (fun q => decide (q.channel = 1)) = some (request 1 70)
      ∧ (∀ r ∈ bench.demand.requests, r.channel ≠ 1)
      ∧ ({ Channel.reset with tripped := true } : Channel).tripped = true ∧ (bench.outputs.channels.get 1).tripped = false := by
  decide +kernel

theorem test_forget_cases :
    (Sixteen.get (withRow 15 { Row.cleared with state := .retired } bench).peers 15).state = .retired
      ∧ (Sixteen.get bench.peers 15).state ≠ .retired := by decide +kernel

theorem test_store_write_cases :
    (0xDF : Byte).toNat < 0xE0 ∧ 0xE0 ≤ (0xE0 : Byte).toNat ∧ bench.store.supplyLow = false ∧ bench.store.write = none
      ∧ ({ bench.store with key := .unlocked } : ConfigStore).key = .unlocked
      ∧ (inState .parked bench).member.state = .parked := by decide +kernel

theorem test_write_operation_case :
    ({ bench with store := { bench.store with write := some { address := 7, data := 3 } } } : State).store.write
        = some { address := 7, data := 3 } ∧ Memory.wf bench.store.cells = true
      ∧ Memory.read (Memory.write bench.store.cells 7 3) 7 = 3 := by decide +kernel

theorem test_port_cases :
    (writingAt 0x13 bench).port.link = .writing 0x13 ∧ (writingAt 0x15 bench).port.link = .writing 0x15
      ∧ (writingAt 0x22 bench).port.link = .writing 0x22 ∧ (writingAt 0x26 bench).port.link = .writing 0x26
      ∧ bench.port.link = .released ∧ bench.phase.held = false ∧ State.reset.port.link = .released := by decide +kernel

theorem test_latched_read_case :
    (let s := { bench with port := { bench.port with link := .reading 0x0B, latch := some { address := 0x0B, value := 9 } } }
     s.port.link = .reading 0x0B ∧ captured s 0x0B = 9
       ∧ windowLatch s 0x0A = some { address := 0x0B, value := 0 } ∧ windowLatch s 0x0B = none
       ∧ (0x0A : BitVec 7) ∈ twoByteAddresses ∧ (0x0B : BitVec 7) ∉ twoByteAddresses) := by decide +kernel

/-- A state that meets every kept condition with levels above 0, a queued request and a tripped channel. -/
def kept : State :=
  queued [request 1 70] { drawing40 with
    share := { drawing40.share with own := some ownRecord }
    outputs := { drawing40.outputs with
      channels := drawing40.outputs.channels.set 2 { Channel.reset with tripped := true } } }

theorem test_window_case :
    committedTotal drawing40.outputs.channels < 65536 ∧ windowByte drawing40 0x0A = 40 ∧ bench.share.own = none
      ∧ kept.share.own = some ownRecord ∧ ownRecord.body.ask = some { amount := 30, priority := 5, tag := 7 }
      ∧ windowByte kept 0x43 = 0x55 ∧ windowWord kept 0x4E = 30 := by decide +kernel

theorem test_row_and_channel_view_cases :
    (let s := withRow 2 (liveRow 9 7 5 (some { amount := 30, priority := 4, tag := 7 }))
       { kept with port := { kept.port with rowSelect := 2, channelSelect := 1 } }
     Sixteen.get bench.peers 2 = Row.cleared ∧ (Sixteen.get s.peers 2).ask = some { amount := 30, priority := 4, tag := 7 }
       ∧ (Sixteen.get s.peers 2).missed < 16 ∧ s.demand.requests = [] ++ request 1 70 :: [] ∧ (request 1 70).channel = 1
       ∧ (∀ q ∈ s.demand.requests, q.channel ≠ 2)
       ∧ [0x50, 0x51, 0x54, 0x56, 0x58, 0x5E, 0x63, 0x6A].map (windowByte s)
         = [0x09, 0x45, 0x70, 9, 7, 30, 0x51, 70]) := by decide +kernel

theorem test_kept_conditions_meet :
    drawsWithinBound kept = true ∧ queueInOrder kept = true ∧ levelsWithinMax kept = true ∧ trippedAtZero kept = true
      ∧ ownRowAbsent kept = true ∧ Memory.wf kept.store.cells = true := by decide +kernel

theorem test_a_kept_state_steps : ∃ t, step { kept with pending := [.periodStart] } = .next t := ⟨_, rfl⟩

end Sys2Proof.Tests
end

section
/-! SUPPORT. Event flags after each operation, ordered lists, and what a cut leaves of each channel. -/

namespace Sys2Proof.Machine

/-! ### Event flags (R158) -/

/-- The mask of an event holds its own position alone. -/
theorem Event.getLsbD_mask (a b : Event) : a.mask.getLsbD b.position = decide (b = a) := by
  cases a <;> cases b <;> rfl

/-- A raised event is set, and no other flag changes. -/
@[simp] theorem flagSet_raise (a b : Event) (s : State) : flagSet b (raise a s) = (flagSet b s || decide (b = a)) := by
  simp [flagSet, Event.getLsbD_mask]

@[simp] theorem flagSet_raiseIf (c : Bool) (a b : Event) (s : State) :
    flagSet b (raiseIf c a s) = (flagSet b s || (c && decide (b = a))) := by
  cases c <;> simp [raiseIf]

/-- A flag reads the flag word alone. -/
theorem flagSet_congr (e : Event) {s t : State} (h : t.port.flags = s.port.flags) : flagSet e t = flagSet e s := by
  simp [flagSet, h]

/-- A head re-check sets RESULT and no other flag (R106, R113). -/
theorem flagSet_headRecheck {e : Event} (he : e ≠ .result) (s : State) : flagSet e (headRecheck s) = flagSet e s := by
  apply headRecheck_induction (fun t => flagSet e t = flagSet e s)
  · intro t r rest ih _ _
    calc flagSet e (grantHead r (setRequests rest t)) = (flagSet e t || decide (e = .result)) := flagSet_raise _ _ _
      _ = flagSet e s := by simp [he, ih]
  · rfl

/-! ### Ordered lists -/

section Order
variable {α : Type} {before : α → α → Bool}

/-- Insertion keeps a list in which nothing comes before an element ahead of it. -/
theorem insertOrdered_pairwise (asymm : ∀ a b, before a b = true → before b a = false)
    (negTrans : ∀ a b c, before a b = false → before b c = false → before a c = false) (a : α) (l : List α)
    (h : l.Pairwise fun x y => before y x = false) :
    (insertOrdered before a l).Pairwise fun x y => before y x = false := by
  induction l with
  | nil => simp [insertOrdered]
  | cons b bs ih =>
    obtain ⟨hb, hbs⟩ := List.pairwise_cons.mp h
    unfold insertOrdered
    split
    case isTrue hba =>
      refine List.pairwise_cons.mpr ⟨fun y hy => ?_, ih hbs⟩
      rcases List.mem_cons.mp ((insertOrdered_perm before a bs).mem_iff.mp hy) with rfl | hy
      · exact asymm _ _ hba
      · exact hb y hy
    case isFalse hba =>
      have hba : before b a = false := by simpa using hba
      refine List.pairwise_cons.mpr ⟨fun y hy => ?_, h⟩
      rcases List.mem_cons.mp hy with rfl | hy
      · exact hba
      · exact negTrans _ _ _ (hb y hy) hba

/-- A list put in order holds no element that comes before one ahead of it. -/
theorem putInOrder_pairwise (asymm : ∀ a b, before a b = true → before b a = false)
    (negTrans : ∀ a b c, before a b = false → before b c = false → before a c = false) (l : List α) :
    (putInOrder before l).Pairwise fun x y => before y x = false := by
  induction l with
  | nil => exact List.Pairwise.nil
  | cons a as ih => exact insertOrdered_pairwise asymm negTrans a _ ih

/-- Where the last element of a list lands: behind every element that it does not come before, ties included. -/
theorem putInOrder_snoc (negTrans : ∀ a b c, before a b = false → before b c = false → before a c = false)
    (x : α) (l : List α) :
    ∃ ahead behind, putInOrder before (l ++ [x]) = ahead ++ x :: behind ∧ (ahead ++ behind).Perm l
      ∧ (∀ a ∈ ahead, before x a = false) ∧ (∀ a ∈ behind, before x a = true) := by
  induction l with
  | nil => exact ⟨[], [], rfl, List.Perm.refl _, by simp, by simp⟩
  | cons a as ih =>
    obtain ⟨ahead, behind, hput, hperm, hahead, hbehind⟩ := ih
    have insertAt : ∀ p : List α, (∀ b ∈ p, before x b = false) →
        ∃ p' q', insertOrdered before a (p ++ x :: behind) = p' ++ x :: q' ∧ (p' ++ q').Perm (a :: (p ++ behind))
          ∧ (∀ b ∈ p', before x b = false) ∧ (∀ b ∈ q', before x b = true) := by
      intro p hp
      induction p with
      | nil =>
        by_cases hxa : before x a = true
        · refine ⟨[], insertOrdered before a behind, by simp [insertOrdered, hxa], insertOrdered_perm before a behind,
            by simp, fun b hb => ?_⟩
          rcases List.mem_cons.mp ((insertOrdered_perm before a behind).mem_iff.mp hb) with rfl | hb
          · exact hxa
          · exact hbehind b hb
        · exact ⟨[a], behind, by simp [insertOrdered, hxa], List.Perm.refl _, by simpa using hxa, hbehind⟩
      | cons b bs ihp =>
        obtain ⟨p', q', hi, hperm', hp', hq'⟩ := ihp fun c hc => hp c (List.mem_cons_of_mem _ hc)
        have hxb := hp b List.mem_cons_self
        by_cases hba : before b a = true
        · exact ⟨b :: p', q', by simp [insertOrdered, hba, hi], (hperm'.cons b).trans (List.Perm.swap _ _ _),
            List.forall_mem_cons.mpr ⟨hxb, hp'⟩, hq'⟩
        · exact ⟨a :: b :: bs, behind, by simp [insertOrdered, hba], List.Perm.refl _,
            List.forall_mem_cons.mpr ⟨negTrans _ _ _ hxb (by simpa using hba), hp⟩, hbehind⟩
    obtain ⟨p', q', hi, hperm', hp', hq'⟩ := insertAt ahead hahead
    exact ⟨p', q', by rw [← hi, ← hput]; rfl, hperm'.trans (hperm.cons a), hp', hq'⟩

/-- The part of a list that a property picks out, wherever the split into the two parts came from. -/
theorem perm_filter_of_parts {p q l : List α} (P : α → Bool) (hperm : (p ++ q).Perm l) (hp : ∀ a ∈ p, P a = true)
    (hq : ∀ a ∈ q, P a = false) : p.Perm (l.filter P) := by
  have h := hperm.filter P
  rw [List.filter_append, List.filter_eq_self.mpr hp, List.filter_eq_nil_iff.mpr (by simpa using hq),
    List.append_nil] at h
  exact h

/-- A sum over the picked part of a list is a sum over the whole list with 0 for the rest. -/
theorem sum_map_filter (P : α → Bool) (g : α → Nat) (l : List α) :
    ((l.filter P).map g).sum = (l.map fun a => if P a = true then g a else 0).sum := by
  induction l with
  | nil => rfl
  | cons a as ih => by_cases h : P a = true <;> simp [h, ih]

/-- A sum over the entries that a list gives is a sum over the list with 0 where it gives none. -/
theorem sum_map_filterMap {β : Type} (f : α → Option β) (g : β → Nat) (l : List α) :
    ((l.filterMap f).map g).sum = (l.map fun a => ((f a).map g).getD 0).sum := by
  induction l with
  | nil => rfl
  | cons a as ih => cases h : f a <;> simp [h, ih]

end Order

/-! ### What a cut leaves of each channel (R121) -/

/-- One channel comes before another in cut order (R121). -/
def cutsBefore (chs : Four Channel) (a b : Chan) : Bool :=
  decide ((chs.get a).priority < (chs.get b).priority)
    || (decide ((chs.get a).priority = (chs.get b).priority) && decide (b < a))

theorem cutsBefore_iff (chs : Four Channel) (a b : Chan) : cutsBefore chs a b = true ↔
    (chs.get a).priority < (chs.get b).priority ∨ ((chs.get a).priority = (chs.get b).priority ∧ b < a) := by
  simp [cutsBefore]

theorem cutsBefore_eq_false_iff (chs : Four Channel) (a b : Chan) : cutsBefore chs a b = false ↔
    (chs.get b).priority < (chs.get a).priority ∨ ((chs.get a).priority = (chs.get b).priority ∧ a ≤ b) := by
  rw [← Bool.not_eq_true, cutsBefore_iff]
  bv_omega

/-- A channel asked for an amount gives what it has of it (R121). -/
def Channel.givesUpTo (amount : Nat) (ch : Channel) : Channel :=
  if min ch.committed amount = 0 then ch else ch.give (min ch.committed amount)

/-- A cut leaves the channels that its walk does not name. -/
theorem cutWalk_get_of_notMem {c : Chan} {cs : List Chan} (n : Nat) (chs : Four Channel) (h : c ∉ cs) :
    (cutWalk cs n chs).get c = chs.get c := by
  induction cs generalizing n chs with
  | nil => rfl
  | cons d rest ih =>
    obtain ⟨hd, hr⟩ : c ≠ d ∧ c ∉ rest := by simpa using h
    unfold cutWalk
    dsimp only
    split
    · exact ih n chs hr
    · rw [ih _ _ hr, Four.get_set_other _ _ _ _ hd]

/-- In a cut a channel gives from what the channels ahead of it leave to be cut. -/
theorem cutWalk_get_at {c : Chan} (ahead behind : List Chan) (n : Nat) (chs : Four Channel)
    (hd : (ahead ++ c :: behind).Nodup) :
    (cutWalk (ahead ++ c :: behind) n chs).get c
      = (chs.get c).givesUpTo (n - (ahead.map fun d => (chs.get d).committed).sum) := by
  induction ahead generalizing n chs with
  | nil =>
    have hc : c ∉ behind := (List.nodup_cons.mp hd).1
    simp only [List.nil_append, cutWalk, List.map_nil, List.sum_nil, Nat.sub_zero, Channel.givesUpTo]
    split
    · exact cutWalk_get_of_notMem n chs hc
    · rw [cutWalk_get_of_notMem _ _ hc, Four.get_set_same]
  | cons d rest ih =>
    obtain ⟨hdm, hr⟩ := List.nodup_cons.mp hd
    have hcd : c ≠ d := fun h => hdm (by simp [h])
    simp only [List.cons_append, cutWalk, List.map_cons, List.sum_cons]
    split
    case isTrue hz =>
      rw [ih n chs hr]
      congr 1
      omega
    case isFalse hz =>
      have kept : (rest.map fun e => ((chs.set d ((chs.get d).give (min (chs.get d).committed n))).get e).committed)
          = rest.map fun e => (chs.get e).committed := by
        apply List.map_congr_left
        intro e he
        rw [Four.get_set_other]
        rintro rfl
        exact hdm (by simp [he])
      rw [ih _ _ hr, kept, Four.get_set_other _ _ _ _ hcd]
      congr 1
      omega

/-- The channels ahead of a channel in cut order hold its committed total ahead (R121). -/
theorem cutOrder_split (chs : Four Channel) (c : Chan) : ∃ ahead behind, cutOrder chs = ahead ++ c :: behind
    ∧ (ahead.map fun d => (chs.get d).committed).sum = committedAhead chs c := by
  have sorted : (cutOrder chs).Pairwise fun x y => cutsBefore chs y x = false := by
    apply putInOrder_pairwise
    · intro a b h
      rw [cutsBefore_iff] at h
      rw [cutsBefore_eq_false_iff]
      bv_omega
    · intro a b c hab hbc
      rw [cutsBefore_eq_false_iff] at *
      bv_omega
  have nodup : (cutOrder chs).Nodup := (cutOrder_perm chs).nodup_iff.mpr (by decide)
  have mem : c ∈ cutOrder chs := (cutOrder_perm chs).mem_iff.mpr (by revert c; decide)
  obtain ⟨ahead, behind, split⟩ := List.append_of_mem mem
  rw [split] at sorted nodup
  obtain ⟨-, later, cross⟩ := List.pairwise_append.mp sorted
  obtain ⟨-, -, distinct⟩ := List.pairwise_append.mp nodup
  have isAhead : ∀ d ∈ ahead, cutsBefore chs d c = true := by
    intro d hd
    have h1 := cross d hd c List.mem_cons_self
    have h2 := distinct d hd c List.mem_cons_self
    rw [cutsBefore_eq_false_iff] at h1
    rw [cutsBefore_iff]
    bv_omega
  have isBehind : ∀ d ∈ c :: behind, cutsBefore chs d c = false := by
    intro d hd
    rcases List.mem_cons.mp hd with rfl | hd
    · simp [cutsBefore]
    · exact List.rel_of_pairwise_cons later hd
  have perm : ahead.Perm (([0, 1, 2, 3] : List Chan).filter fun d => cutsBefore chs d c) :=
    perm_filter_of_parts _ (split ▸ cutOrder_perm chs) isAhead isBehind
  refine ⟨ahead, behind, split, ?_⟩
  rw [(perm.map fun d => (chs.get d).committed).sum_eq, sum_map_filter]
  simp only [cutsBefore_iff, committedAhead]

/-- What a cut leaves of each channel, without the walk (R121, R120). -/
theorem cutTo_get_eq (target : Nat) (chs : Four Channel) (c : Chan) :
    (cutTo target chs).get c = afterCut target chs c := by
  unfold cutTo
  split
  case isTrue h =>
    simp [afterCut, Nat.sub_eq_zero_of_le h]
  case isFalse h =>
    obtain ⟨ahead, behind, split, sum⟩ := cutOrder_split chs c
    have nodup : (cutOrder chs).Nodup := (cutOrder_perm chs).nodup_iff.mpr (by decide)
    rw [split] at nodup ⊢
    rw [cutWalk_get_at ahead behind _ chs nodup, sum]
    unfold Channel.givesUpTo afterCut
    dsimp only
    split
    · rfl
    · cases hg : (chs.get c).gate <;> simp [Channel.give, Channel.lowerTo, hg]

end Sys2Proof.Machine
end

section
/-! PROOFS. The line interface's own events: bit times, characters, collisions, completed frames and the line watch. -/

namespace Sys2Proof.Machine

/-! ### What the line interface is doing -/

theorem LineInterface.sends_iff (l : LineInterface) : l.sends = true ↔ ∃ f, l.transmitter = .sending f := by
  unfold LineInterface.sends
  cases l.transmitter <;> simp

theorem LineInterface.sends_eq_false_iff (l : LineInterface) : l.sends = false ↔ ¬∃ f, l.transmitter = .sending f := by
  rw [← LineInterface.sends_iff, Bool.not_eq_true]

theorem LineInterface.active_iff (l : LineInterface) : l.active = true ↔ l.receiver ≠ .inactive := by
  simp [LineInterface.active]

theorem LineInterface.active_eq_false_iff (l : LineInterface) : l.active = false ↔ l.receiver = .inactive := by
  simp [LineInterface.active]

theorem LineInterface.idle_iff (l : LineInterface) :
    l.idle = true ↔ l.receiver ≠ .inactive ∧ l.slot = none ∧ ¬∃ f, l.transmitter = .sending f := by
  simp [LineInterface.idle, LineInterface.active_iff, LineInterface.sends_eq_false_iff, and_assoc]

/-! ### One bit time (log 2) -/

/-- When an event of the line interface is due, in the numbers of Table 1-3 (R1, R2, R3, R7, R9, R11, R16, R44). -/
theorem lineEventDue_iff (s : State) : lineEventDue s = true ↔
    (s.line.reception ≠ none ∧ s.line.slot = none ∧ 3 ≤ s.line.idleGap)
    ∨ (s.line.idle = true ∧ s.line.deferralExpired = false ∧ 12 + 4 * s.store.station.toNat ≤ s.line.idleGap)
    ∨ (s.line.idle = true ∧ 84 ≤ s.line.idleGap)
    ∨ 8192 ≤ s.line.lineWatch
    ∨ (s.line.receiver = .synchronising ∧ 3 ≤ s.line.syncWait)
    ∨ (∃ k, s.line.slot = some k ∧ 10 ≤ k)
    ∨ (∃ f, s.line.transmitter = .sending f ∧ 10 * f.bytes.length ≤ s.line.sentBits)
    ∨ (∃ k, s.share.flight = some k ∧ 48 ≤ k) := by
  unfold lineEventDue
  simp only [Bool.or_eq_true, Bool.and_eq_true, decide_eq_true_eq, Bool.not_eq_true', Option.isSome_iff_ne_none,
    Option.isNone_iff_eq_none, or_assoc, and_assoc]
  refine or_congr Iff.rfl (or_congr Iff.rfl (or_congr Iff.rfl (or_congr Iff.rfl (or_congr Iff.rfl
    (or_congr ?slotEnds (or_congr ?frameSent ?computed))))))
  case slotEnds =>
    cases s.line.slot with
    | none => simp
    | some k => simp only [decide_eq_true_eq, Option.some.injEq, exists_eq_left']; rfl
  case frameSent =>
    cases s.line.transmitter with
    | silent | idle => simp
    | sending f => simp only [decide_eq_true_eq, Transmitter.sending.injEq, exists_eq_left']; rfl
  case computed =>
    cases s.share.flight with
    | none => simp
    | some k => simp only [decide_eq_true_eq, Option.some.injEq, exists_eq_left']; rfl

/-- The timers that one bit time moves where they count, and leaves elsewhere (R2, R7, R16). -/
theorem LineInterface.bitTime_sentBits (l : LineInterface) :
    l.bitTime.sentBits = if l.sends = true then l.sentBits + 1 else l.sentBits := rfl

theorem LineInterface.bitTime_idleGap (l : LineInterface) :
    l.bitTime.idleGap = if l.idle = true ∧ l.activityLeft = 0 then l.idleGap + 1 else l.idleGap := by
  simp [LineInterface.bitTime]

theorem LineInterface.bitTime_syncWait (l : LineInterface) :
    l.bitTime.syncWait = if l.receiver = .synchronising ∧ l.activityLeft = 0 then l.syncWait + 1 else l.syncWait := rfl

theorem passBitTime_of_waiting {s : State} (h : s.line.receiver = .inactive ∨ lineEventDue s = true) :
    passBitTime s = s := by
  rw [← LineInterface.active_eq_false_iff] at h
  rcases h with h | h <;> simp [passBitTime, h]

theorem passBitTime_of_passing {s : State} (active : s.line.receiver ≠ .inactive) (quiet : lineEventDue s = false) :
    passBitTime s
      = { s with line := s.line.bitTime, share := { s.share with flight := s.share.flight.map (· + 1) } } := by
  rw [← LineInterface.active_iff] at active
  simp [passBitTime, active, quiet]

/-! ### Characters (R1, R3) -/

/-- A slot's end stores its character in the reception in progress, whether or not the next slot opens at once. -/
theorem LineInterface.endSlot_reception {l : LineInterface} {k : Nat} {r : Reception} {value : Byte} {stop stays : Bool}
    (slot : l.slot = some k) (reception : l.reception = some r) :
    (l.endSlot value stop stays).reception = some (r.store value (!stop)) := by
  unfold LineInterface.endSlot
  rw [slot, reception]
  dsimp only
  split
  · rfl
  · rfl

end Sys2Proof.Machine

section
open Sys2Proof Sys2Proof.Machine

/-- Settles O2: `lineEventDue` is the statement's list of events, and each timer that may stand still has its
equation. -/
theorem emptyQueueLetsOneBitTimePass : Obligations.EmptyQueueLetsOneBitTimePass := by
  intro s empty
  refine ⟨passBitTime s, by rw [step, empty], ?_, ?_⟩
  all_goals rw [← LineInterface.idle_iff, ← lineEventDue_iff]
  · exact passBitTime_of_waiting
  · intro active quiet
    rw [passBitTime_of_passing active (by simpa using quiet), ← LineInterface.sends_iff]
    refine ⟨rfl, ?_⟩
    dsimp only
    rw [LineInterface.bitTime_sentBits, LineInterface.bitTime_idleGap, LineInterface.bitTime_syncWait]
    refine ⟨fun h => if_pos h, fun h => if_neg h, fun h h' => if_pos ⟨h, h'⟩, fun h => if_neg ?_,
      fun h h' => if_pos ⟨h, h'⟩, fun h => if_neg ?_⟩
    all_goals
      rintro ⟨h1, h2⟩
      rcases h with h | h
      · exact h h1
      · omega

/-- Settles O33: the arm's one case, with the count that reaches 3 set apart. -/
theorem collisionFailsTheAttempt : Obligations.CollisionFailsTheAttempt := by
  intro s f sending
  have sends : s.line.sends = true := s.line.sends_iff.mpr ⟨f, sending⟩
  rw [exec_collision, execCollision]
  by_cases third : s.line.attempts + 1 = 3
  · simp [collide, sends, third, raiseLine, raise, onLine]
  · simp [collide, sends, third, onLine]

/-- Settles O10: one arm of the receiver after the other; at a slot's end the line that stayed dominant is set apart. -/
theorem receiverTakesBitsAndCharacters : Obligations.ReceiverTakesBitsAndCharacters := by
  refine ⟨?_, ?_, ?_, ?_⟩
  · intro s synchronising
    rw [exec_receiverReady, execReceiverReady, exec_synchronisingTransition, execSynchronisingTransition]
    simp [onLine, LineInterface.synchronised, LineInterface.transition, synchronising, receptionEndGap, characterBits]
  · intro s
    simp [exec_startBitConfirmed, execStartBitConfirmed, onLine, LineInterface.startBit]
  · intro s ready closed
    rw [exec_startBitConfirmed, execStartBitConfirmed]
    simp [onLine, LineInterface.startBit, ready, closed, LineInterface.openSlot, Reception.begin]
  · intro s k r value stop stays slot reception
    rw [exec_characterSlotEnd, execCharacterSlotEnd]
    refine ⟨_, rfl, ?_, ?_, ?_⟩
    · by_cases dominant : stop = false ∧ stays = true
      · obtain ⟨rfl, rfl⟩ := dominant
        simp [onLine, LineInterface.endSlot, slot, LineInterface.openSlot]
      · rw [if_neg dominant, if_neg dominant, if_neg dominant]
        simp [onLine, LineInterface.endSlot, slot, dominant]
    all_goals
      intro length
      rw [onLine_line, LineInterface.endSlot_reception slot reception]
    · simp [Reception.store, length]
    · simp [Reception.store, Nat.not_lt.mpr length]

end
end

section
/-! PROOFS. Completed frames, the line watch, and the end of a reception. -/

namespace Sys2Proof.Machine

/-! ### Transmit complete (R16) -/

/-- A head re-check raises no gate and applies nothing (R104, R106). -/
theorem headRecheck_channel (s : State) (c : Chan) :
    ((headRecheck s).outputs.channels.get c).gate = (s.outputs.channels.get c).gate
      ∧ ((headRecheck s).outputs.channels.get c).applied = (s.outputs.channels.get c).applied := by
  apply headRecheck_induction (fun t => (t.outputs.channels.get c).gate = (s.outputs.channels.get c).gate
    ∧ (t.outputs.channels.get c).applied = (s.outputs.channels.get c).applied)
  · rintro t r rest ⟨gate, applied⟩ - -
    simp only [grantHead, writeResult_outputs, onChannel_outputs, setRequests_outputs]
    by_cases h : c = r.channel
    · subst h
      rw [Four.get_set_same]
      exact ⟨gate, applied⟩
    · rw [Four.get_set_other _ _ _ _ h]
      exact ⟨gate, applied⟩
  · exact ⟨rfl, rfl⟩

theorem headRecheck_of_noRequests {s : State} (h : s.demand.requests = []) : headRecheck s = s := by
  simp [headRecheck, h, recheckHeads]

/-! ### Entry to ISOLATED (R89, R123) -/

/-- A cut whose head re-check grants nothing: SHED exactly where the committed total is above the target. -/
theorem shedCut_of_noGrant (target : Nat) {s : State}
    (h : headRecheck (raise .shed (onChannels (cutTo target) s)) = raise .shed (onChannels (cutTo target) s)) :
    shedCut target s
      = raiseIf (decide (target < committedTotal s.outputs.channels)) .shed (onChannels (cutTo target) s) := by
  unfold shedCut
  split
  case isTrue le =>
    have kept : cutTo target s.outputs.channels = s.outputs.channels := if_pos le
    simp [raiseIf, Nat.not_lt.mpr le, onChannels, kept]
  case isFalse gt =>
    rw [h]
    simp [raiseIf, Nat.not_le.mp gt]

theorem enterIsolated_eq (s : State) : enterIsolated s
    = raiseIf (decide (s.config.floor < committedTotal s.outputs.channels)) .shed
        (onChannels (cutTo s.config.floor) (emptyAsk (enter .isolated s))) :=
  shedCut_of_noGrant s.config.floor (headRecheck_of_not_member _ (by simp))

end Sys2Proof.Machine

section
open Sys2Proof Sys2Proof.Machine

/-- Settles O34: a CLAIM's arm releases the gates and re-checks the heads; a LEAVE's enters PARKED. -/
theorem completedFrameBecomesTheRecord : Obligations.CompletedFrameBecomesTheRecord := by
  refine ⟨?_, ?_⟩
  · intro s n q b sending
    rw [exec_transmitComplete, execTransmitComplete, completeTransmit, sending]
    dsimp only
    refine ⟨_, rfl, ?_, ?_, ?_⟩
    · obtain ⟨d, chs, f, frame⟩ := headRecheck_frame (onChannels (Four.map Channel.release)
        (setOwn (some { body := b, sequence := q, completed := true }) (onLine LineInterface.complete s)))
      rw [frame]
      rfl
    · intro c
      obtain ⟨gate, applied⟩ := headRecheck_channel (onChannels (Four.map Channel.release)
        (setOwn (some { body := b, sequence := q, completed := true }) (onLine LineInterface.complete s))) c
      rw [gate, applied]
      simp [Channel.release]
    · intro empty
      rw [headRecheck_of_noRequests (by simpa using empty)]
      simp [Channel.release]
  · intro s n q code sending parking
    rw [exec_transmitComplete, execTransmitComplete, completeTransmit, sending]
    simp [parking, enter, raise, setOwn, onLine, LineInterface.complete]

/-- Settles O30: by the station state; a MEMBER's case is the entry to ISOLATED, whose cut `cutTo_get_eq` gives. -/
theorem lineWatchExpiryReachesTheStation : Obligations.LineWatchExpiryReachesTheStation := by
  intro s active
  rw [exec_lineWatchExpiry, execLineWatchExpiry, expireLineWatch, if_pos active]
  refine ⟨_, rfl, ?_, ?_⟩
  · intro notMember
    unfold takeLineWatch
    rw [raiseLine_member, onLine_member]
    cases state : s.member.state with
    | member => exact absurd state notMember
    | start | listen | joining | isolated | parking | parked | fault => rfl
  · intro member
    unfold takeLineWatch
    rw [raiseLine_member, onLine_member, member]
    dsimp only
    rw [enterIsolated_eq]
    refine ⟨?_, ?_, ?_⟩
    · by_cases above : committedTotal s.outputs.channels ≤ s.config.floor
      · simp [above, raiseIf, Nat.not_lt.mpr above, onChannels, emptyAsk, setAsk, enter, raise, raiseLine,
          onLine, AskRecord.empty]
      · simp [above, raiseIf, Nat.not_le.mp above, onChannels, emptyAsk, setAsk, enter, raise, raiseLine,
          onLine, AskRecord.empty]
    · simp [committedTotal_cutTo]
    · intro c
      simp [cutTo_get_eq]

end
end

section
/-! PROOFS. What a reception judged valid holds (R4, R162, R163), and where an invalid one and an own echo end. -/

namespace Sys2Proof.Machine

/-! ### Fields of a few bits in bytes (Tables 11-1, 11-2) -/

@[simp] theorem lowByte_halfOf (low high : Byte) : lowByte (halfOf low high) = low := BitVec.extractLsb'_append_eq_right

@[simp] theorem highByte_halfOf (low high : Byte) : highByte (halfOf low high) = high :=
  BitVec.extractLsb'_append_eq_left

theorem halfOf_toNat (low high : Byte) : (halfOf low high).toNat = high.toNat * 256 + low.toNat := by
  calc (halfOf low high).toNat = high.toNat <<< 8 ||| low.toNat := BitVec.toNat_append high low
    _ = high.toNat * 256 + low.toNat := by rw [← Nat.shiftLeft_add_eq_or_of_lt low.isLt, Nat.shiftLeft_eq]

theorem half_toNat (h : Half) : half h.toNat = h := by simp [half]

/-- A number of twelve bits is below 4096. -/
theorem halfOf_toNat_le (low high : Byte) (h : high.extractLsb' 4 4 = 0#4) : (halfOf low high).toNat ≤ 4095 := by
  have top : high.toNat / 16 = 0 := by
    have := congrArg BitVec.toNat h
    simp [Nat.shiftRight_eq_div_pow] at this
    omega
  have := low.isLt
  rw [halfOf_toNat]
  omega

/-- The bytes of a two-byte field read from two bytes are those bytes. -/
theorem lowFirst_half_halfOf (low high : Byte) : lowFirst (half (halfOf low high).toNat) = [low, high] := by
  rw [half_toNat, lowFirst, lowByte_halfOf, highByte_halfOf]

/-- Byte 1 of a frame is its kind above its source. -/
theorem byte_kindAndSource : ∀ (b : Byte) (kind : BitVec 4), b.extractLsb' 4 4 = kind →
    byte (16 * kind.toNat + (b.extractLsb' 0 4).toNat) = b := by
  rintro b _ rfl
  revert b
  decide +kernel

/-- Byte 3 of a CLAIM is its five marks above its priority. -/
theorem byte_flags : ∀ b : Byte, byte (bitAt 7 (b.getLsbD 7) + bitAt 6 (b.getLsbD 6) + bitAt 5 (b.getLsbD 5)
    + bitAt 4 (b.getLsbD 4) + bitAt 3 (b.getLsbD 3) + (b.extractLsb' 0 3).toNat) = b := by decide +kernel

/-- The last byte of an ask is its priority above its tag. -/
theorem byte_askFields : ∀ b : Byte, b.getLsbD 7 = false →
    byte ((b.extractLsb' 4 3).toNat * 16 + (b.extractLsb' 0 4).toNat) = b := by decide +kernel

/-! ### The bytes of a frame as it was read -/

theorem claimFlags_readClaim (b : Nat → Byte) : claimFlags (readClaim b) = b 3 := by
  have ask : (readAsk b).isSome = (b 3).getLsbD 7 := by
    unfold readAsk
    split <;> simp_all
  calc claimFlags (readClaim b) = byte (bitAt 7 (readAsk b).isSome + bitAt 6 ((b 3).getLsbD 6)
        + bitAt 5 ((b 3).getLsbD 5) + bitAt 4 ((b 3).getLsbD 4) + bitAt 3 ((b 3).getLsbD 3)
        + ((b 3).extractLsb' 0 3).toNat) := rfl
    _ = b 3 := by rw [ask, byte_flags]

/-- What the field checks of a CLAIM say (R4, condition 6). -/
theorem claimFieldsValid_iff (b : Nat → Byte) : claimFieldsValid b = true ↔
    (b 5).extractLsb' 4 4 = 0#4 ∧ (b 7).extractLsb' 4 4 = 0#4
      ∧ ((b 3).getLsbD 6 && (b 3).getLsbD 5) = false
      ∧ ((b 3).getLsbD 7 = true →
          halfOf (b 14) (b 15) ≠ 0#16 ∧ (b 15).extractLsb' 4 4 = 0#4 ∧ (b 16).getLsbD 7 = false) := by
  unfold claimFieldsValid
  simp only [Bool.and_eq_true, Bool.or_eq_true, beq_iff_eq, bne_iff_ne, Bool.not_eq_true', and_assoc, imp_iff_not_or,
    Bool.not_eq_true]

/-- The length of what the check value of a CLAIM covers, by its ask-present flag (Table 11-1). -/
def claimCovers (b : Nat → Byte) : Nat := if (b 3).getLsbD 7 then 16 else 13

/-- A CLAIM read from bytes that pass the field checks is sent as those bytes. -/
theorem covered_readClaim (b : Nat → Byte) (kind : (b 1).extractLsb' 4 4 = 1#4) (valid : claimFieldsValid b = true) :
    (Frame.claim ((b 1).extractLsb' 0 4) (b 2) (readClaim b)).covered = (List.range' 1 (claimCovers b)).map b := by
  obtain ⟨-, -, -, askValid⟩ := (claimFieldsValid_iff b).mp valid
  have first := byte_kindAndSource (b 1) 1#4 kind
  have fixed : [byte (16 + ((b 1).extractLsb' 0 4).toNat), b 2, claimFlags (readClaim b)]
      ++ lowFirst (half (readClaim b).held) ++ lowFirst (half (readClaim b).floor) ++ lowFirst (readClaim b).heard
      ++ lowFirst (readClaim b).digest ++ lowFirst (readClaim b).code = (List.range' 1 13).map b := by
    rw [claimFlags_readClaim, show byte (16 + ((b 1).extractLsb' 0 4).toNat) = b 1 from first]
    simp only [readClaim, lowFirst_half_halfOf]
    simp [lowFirst, List.range']
  unfold Frame.covered
  dsimp only
  rw [fixed]
  by_cases ask : (b 3).getLsbD 7 = true
  · obtain ⟨-, -, lastByte⟩ := askValid ask
    have carried : askBytes (readClaim b).ask = [b 14, b 15, b 16] := by
      have read : (readClaim b).ask = some ⟨(halfOf (b 14) (b 15)).toNat, (b 16).extractLsb' 4 3,
          (b 16).extractLsb' 0 4⟩ := if_pos ask
      rw [read, askBytes, lowFirst_half_halfOf, byte_askFields _ lastByte]
      rfl
    rw [carried, claimCovers, if_pos ask]
    rfl
  · have none : (readClaim b).ask = none := if_neg ask
    rw [none, claimCovers, if_neg ask]
    exact List.append_nil _

theorem covered_leave (b : Nat → Byte) (kind : (b 1).extractLsb' 4 4 = 2#4) :
    (Frame.leave ((b 1).extractLsb' 0 4) (b 2) (halfOf (b 3) (b 4))).covered = (List.range' 1 4).map b := by
  have first := byte_kindAndSource (b 1) 2#4 kind
  unfold Frame.covered
  dsimp only
  rw [show byte (32 + ((b 1).extractLsb' 0 4).toNat) = b 1 from first]
  simp [lowFirst, List.range']

/-- Every field of a CLAIM that passes the field checks is in its range (R4). -/
theorem wellFormed_readClaim (source : Station) (sequence : Byte) (b : Nat → Byte) (valid : claimFieldsValid b = true) :
    (Frame.claim source sequence (readClaim b)).wellFormed = true := by
  obtain ⟨held, floor, marks, askValid⟩ := (claimFieldsValid_iff b).mp valid
  have heldLe : (readClaim b).held ≤ 4095 := halfOf_toNat_le _ _ held
  have floorLe : (readClaim b).floor ≤ 4095 := halfOf_toNat_le _ _ floor
  have marksApart : ((readClaim b).joining && (readClaim b).isolated) = false := marks
  have askInRange : (readClaim b).ask.all Ask.wellFormed = true := by
    by_cases ask : (b 3).getLsbD 7 = true
    · obtain ⟨nonzero, top, -⟩ := askValid ask
      have atLeast : 1 ≤ (halfOf (b 14) (b 15)).toNat :=
        Nat.one_le_iff_ne_zero.mpr fun h => nonzero (BitVec.eq_of_toNat_eq h)
      simpa [readClaim, readAsk, ask, Ask.wellFormed] using ⟨atLeast, halfOf_toNat_le _ _ top⟩
    · have none : (readClaim b).ask = none := if_neg ask
      simp [none]
  simp [Frame.wellFormed, heldLe, floorLe, marksApart, askInRange]

/-! ### The judgement of a reception (R4) -/

/-- The byte of a reception at a position. -/
def Reception.byteAt (r : Reception) (i : Nat) : Byte := r.bytes.getD i 0

/-- What a reception judged valid has passed, and which frame it is judged to be. -/
theorem judge_eq_some {r : Reception} {f : Frame} (h : judge r = some f) :
    (r.byteAt 0 = syncByte ∧ r.framingError = false ∧ r.overlong = false ∧ r.expected = some r.bytes.length
        ∧ checkValueMatches r.bytes = true)
      ∧ (((r.byteAt 1).extractLsb' 4 4 = 1#4 ∧ claimFieldsValid r.byteAt = true
            ∧ f = .claim ((r.byteAt 1).extractLsb' 0 4) (r.byteAt 2) (readClaim r.byteAt))
          ∨ ((r.byteAt 1).extractLsb' 4 4 = 2#4
            ∧ f = .leave ((r.byteAt 1).extractLsb' 0 4) (r.byteAt 2) (halfOf (r.byteAt 3) (r.byteAt 4)))) := by
  unfold judge at h
  dsimp only at h
  split at h
  case isFalse => cases h
  case isTrue passed =>
    refine ⟨passed, ?_⟩
    split at h
    case isTrue kind =>
      split at h
      case isTrue valid => exact .inl ⟨kind, valid, (Option.some.inj h).symm⟩
      case isFalse => cases h
    case isFalse =>
      split at h
      case isTrue kind => exact .inr ⟨kind, (Option.some.inj h).symm⟩
      case isFalse => cases h

/-- A run of bytes is its first, those between, and its last two. -/
theorem bytes_eq_parts (l : List Byte) (h : 3 ≤ l.length) : l.getD 0 0 :: ((l.drop 1).take (l.length - 3)
    ++ [l.getD (l.length - 2) 0, l.getD (l.length - 1) 0]) = l := by
  have last : (l.drop 1).drop (l.length - 3) = [l.getD (l.length - 2) 0, l.getD (l.length - 1) 0] := by
    rw [List.drop_drop, show 1 + (l.length - 3) = l.length - 2 by omega, List.drop_eq_getElem_cons (by omega),
      show l.length - 2 + 1 = l.length - 1 by omega, List.drop_eq_getElem_cons (by omega),
      List.drop_eq_nil_of_le (by omega), List.getD_eq_getElem _ _ (by omega), List.getD_eq_getElem _ _ (by omega)]
  rw [← last, List.take_append_drop, List.getD_eq_getElem _ _ (by omega), ← List.drop_eq_getElem_cons, List.drop_zero]

/-- A frame whose covered bytes stand in a run between the sync byte and a check value that matches is sent as that
run. -/
theorem frame_bytes_eq {f : Frame} {l : List Byte} (sync : l.getD 0 0 = syncByte) (long : 3 ≤ l.length)
    (covered : f.covered = (l.drop 1).take (l.length - 3)) (check : checkValueMatches l = true) : f.bytes = l := by
  have crc : crc16 f.covered = halfOf (l.getD (l.length - 1) 0) (l.getD (l.length - 2) 0) := by
    rw [covered]
    simpa [checkValueMatches] using check
  unfold Frame.bytes
  rw [crc, highByte_halfOf, lowByte_halfOf, covered, ← sync]
  exact bytes_eq_parts l long

/-- The covered bytes of a run, read one by one. -/
theorem covered_of_byteAt (r : Reception) (n : Nat) (h : r.bytes.length = n + 3) :
    (r.bytes.drop 1).take (r.bytes.length - 3) = (List.range' 1 n).map r.byteAt := by
  apply List.ext_getElem
  · simp
    omega
  · intro i h1 h2
    have inside : i + 1 < r.bytes.length := by
      simp at h2
      omega
    simp [Reception.byteAt, Nat.add_comm 1 i, List.getElem?_eq_getElem inside]

/-- The expected length of a run of bytes that is as long as expected, by its kind (R3). -/
theorem length_of_expected {r : Reception} (h : expectedLength r.bytes = some r.bytes.length) :
    ((r.byteAt 1).extractLsb' 4 4 = 1#4 → r.bytes.length = claimCovers r.byteAt + 3)
      ∧ ((r.byteAt 1).extractLsb' 4 4 = 2#4 → r.bytes.length = 4 + 3) := by
  obtain ⟨bytes, overlong, framingError, expected⟩ := r
  dsimp only at h ⊢
  match bytes, h with
  | b0 :: b1 :: rest, h =>
    have second : Reception.byteAt ⟨b0 :: b1 :: rest, overlong, framingError, expected⟩ 1 = b1 := rfl
    rw [second]
    refine ⟨fun kind => ?_, fun kind => ?_⟩
    · match rest, h with
      | [], h => simp [expectedLength, kind] at h
      | [b2], h => simp [expectedLength, kind] at h
      | b2 :: b3 :: more, h =>
        have fourth : Reception.byteAt ⟨b0 :: b1 :: b2 :: b3 :: more, overlong, framingError, expected⟩ 3 = b3 := rfl
        rw [claimCovers, fourth]
        unfold expectedLength at h
        simp only [kind] at h
        by_cases ask : b3.getLsbD 7 = true
        · rw [if_pos ask] at h ⊢
          exact (Option.some.inj h).symm
        · rw [if_neg ask] at h ⊢
          exact (Option.some.inj h).symm
    · unfold expectedLength at h
      simp only [kind] at h
      exact (Option.some.inj h).symm

/-- A reception judged valid, its expected length that of its bytes, holds the bytes of the frame it is judged to be,
and every field of that frame is in its range (R4, R162). -/
theorem judge_sound {r : Reception} {f : Frame} (expected : r.expected = expectedLength r.bytes)
    (h : judge r = some f) : f.wellFormed = true ∧ f.bytes = r.bytes := by
  obtain ⟨⟨sync, -, -, length, check⟩, frame⟩ := judge_eq_some h
  obtain ⟨claimLength, leaveLength⟩ := length_of_expected (expected.symm.trans length)
  rcases frame with ⟨kind, valid, rfl⟩ | ⟨kind, rfl⟩
  · have n := claimLength kind
    refine ⟨wellFormed_readClaim _ _ _ valid, frame_bytes_eq sync (by omega) ?_ check⟩
    rw [covered_readClaim _ kind valid, covered_of_byteAt r _ n]
  · have n := leaveLength kind
    refine ⟨rfl, frame_bytes_eq sync (by omega) ?_ check⟩
    rw [covered_leave _ kind, covered_of_byteAt r _ n]

end Sys2Proof.Machine

section
open Sys2Proof Sys2Proof.Machine

/-- Settles O11: `judge_eq_some` says what a valid reception passed, and `judge_sound` what it holds. -/
theorem discardsAndEchoesReachNoBlock : Obligations.DiscardsAndEchoesReachNoBlock := by
  intro s r reception closed
  refine ⟨?_, ?_, ?_, fun expected f h => judge_sound expected h⟩
  · intro fault
    cases h : judge r with
    | none => rfl
    | some f =>
      obtain ⟨⟨sync, framing, overlong, length, -⟩, -⟩ := judge_eq_some h
      rcases fault with bad | bad | bad | bad
      · simp [framing] at bad
      · simp [overlong] at bad
      · exact absurd sync bad
      · exact absurd length bad
  · intro invalid
    simp [exec_receptionEnd, execReceptionEnd, endReception, reception, closed, invalid, onLine, receptionEndGap]
  · intro f valid echo
    simp [exec_receptionEnd, execReceptionEnd, endReception, reception, closed, valid, echo, onLine, receptionEndGap]

end
end

section
/-! PROOFS. When an attempt begins, and the frame that it sends (R10 to R13, R66 to R70, R168). -/

namespace Sys2Proof.Machine

/-! ### The held priority and the heard mask (R66, R67) -/

theorem Four.mem_toList {α : Type} (x : Four α) (a : α) : a ∈ x.toList ↔ ∃ i, x.get i = a := by
  constructor
  · intro h
    simp only [Four.toList, List.mem_cons, List.not_mem_nil, or_false] at h
    rcases h with rfl | rfl | rfl | rfl
    · exact ⟨0, rfl⟩
    · exact ⟨1, rfl⟩
    · exact ⟨2, rfl⟩
    · exact ⟨3, rfl⟩
  · rintro ⟨i, rfl⟩
    rcases chan_cases i with rfl | rfl | rfl | rfl <;> simp [Four.toList, Four.get]

/-- The least of a priority and those of some channels. -/
def leastPriority (p : Priority) (chs : List Channel) : Priority :=
  chs.foldl (fun p c => if c.priority < p then c.priority else p) p

theorem leastPriority_le (p : Priority) (chs : List Channel) :
    leastPriority p chs ≤ p ∧ ∀ ch ∈ chs, leastPriority p chs ≤ ch.priority := by
  induction chs generalizing p with
  | nil => simp [leastPriority]
  | cons c rest ih =>
    obtain ⟨first, others⟩ := ih (if c.priority < p then c.priority else p)
    have unfolded : leastPriority p (c :: rest) = leastPriority (if c.priority < p then c.priority else p) rest := rfl
    rw [unfolded, List.forall_mem_cons]
    split at first
    case isTrue lower =>
      rw [if_pos lower] at others ⊢
      exact ⟨by bv_omega, first, others⟩
    case isFalse lower =>
      rw [if_neg lower] at others ⊢
      exact ⟨first, by bv_omega, others⟩

theorem leastPriority_eq (p : Priority) (chs : List Channel) :
    leastPriority p chs = p ∨ ∃ ch ∈ chs, leastPriority p chs = ch.priority := by
  induction chs generalizing p with
  | nil => exact .inl rfl
  | cons c rest ih =>
    have unfolded : leastPriority p (c :: rest) = leastPriority (if c.priority < p then c.priority else p) rest := rfl
    rw [unfolded]
    rcases ih (if c.priority < p then c.priority else p) with h | ⟨ch, mem, h⟩
    · rw [h]
      split
      · exact .inr ⟨c, List.mem_cons_self, rfl⟩
      · exact .inl rfl
    · exact .inr ⟨ch, List.mem_cons_of_mem _ mem, h⟩

/-- The channels committed above 0. -/
def committedChannels (chs : Four Channel) : List Channel := chs.toList.filter fun ch => decide (0 < ch.committed)

theorem mem_committedChannels (chs : Four Channel) (ch : Channel) :
    ch ∈ committedChannels chs ↔ ∃ c, chs.get c = ch ∧ 0 < ch.committed := by
  simp [committedChannels, Four.mem_toList]

theorem heldPriority_eq_zero {chs : Four Channel} (h : ∀ c, (chs.get c).committed = 0) : heldPriority chs = 0 := by
  have none : committedChannels chs = [] := by
    apply List.eq_nil_iff_forall_not_mem.mpr
    intro ch mem
    obtain ⟨c, rfl, above⟩ := (mem_committedChannels chs ch).mp mem
    have := h c
    omega
  unfold heldPriority
  rw [show chs.toList.filter (fun ch => decide (0 < ch.committed)) = [] from none]

/-- The held priority where some channel is committed above 0 (R66). -/
theorem heldPriority_eq_least {chs : Four Channel} {ch : Channel} {rest : List Channel}
    (h : committedChannels chs = ch :: rest) : heldPriority chs = leastPriority ch.priority rest := by
  unfold heldPriority
  rw [show chs.toList.filter (fun ch => decide (0 < ch.committed)) = ch :: rest from h]
  rfl

theorem heldPriority_le {chs : Four Channel} {c : Chan} (h : 0 < (chs.get c).committed) :
    heldPriority chs ≤ (chs.get c).priority := by
  have mem : chs.get c ∈ committedChannels chs := (mem_committedChannels _ _).mpr ⟨c, rfl, h⟩
  cases split : committedChannels chs with
  | nil => simp [split] at mem
  | cons ch rest =>
    rw [heldPriority_eq_least split]
    obtain ⟨first, others⟩ := leastPriority_le ch.priority rest
    rw [split] at mem
    rcases List.mem_cons.mp mem with same | later
    · rw [same]
      exact first
    · exact others _ later

theorem heldPriority_attained {chs : Four Channel} (h : ∃ c, 0 < (chs.get c).committed) :
    ∃ c, 0 < (chs.get c).committed ∧ heldPriority chs = (chs.get c).priority := by
  obtain ⟨c, above⟩ := h
  have mem : chs.get c ∈ committedChannels chs := (mem_committedChannels _ _).mpr ⟨c, rfl, above⟩
  cases split : committedChannels chs with
  | nil => simp [split] at mem
  | cons ch rest =>
    have of_mem : ∀ x ∈ ch :: rest, heldPriority chs = x.priority →
        ∃ c, 0 < (chs.get c).committed ∧ heldPriority chs = (chs.get c).priority := by
      intro x hx hp
      obtain ⟨d, rfl, committed⟩ := (mem_committedChannels chs x).mp (split ▸ hx)
      exact ⟨d, committed, hp⟩
    rcases leastPriority_eq ch.priority rest with first | ⟨x, later, other⟩
    · exact of_mem ch List.mem_cons_self ((heldPriority_eq_least split).trans first)
    · exact of_mem x (List.mem_cons_of_mem _ later) ((heldPriority_eq_least split).trans other)

/-- One bit of a mask of stations. -/
theorem getLsbD_stationBit : ∀ k n : Station, (1#16 <<< k.toNat).getLsbD n.toNat = decide (n = k) := by decide +kernel

/-- A mask gathered over a list of stations names those of the list that pass the test. -/
theorem getLsbD_gathered (test : Station → Bool) (l : List Station) (m : Half) (n : Station) :
    (l.foldl (fun m k => if test k = true then m ||| (1#16 <<< k.toNat) else m) m).getLsbD n.toNat
      = (m.getLsbD n.toNat || (decide (n ∈ l) && test n)) := by
  induction l generalizing m with
  | nil => simp
  | cons k rest ih =>
    have one : (if test k = true then m ||| (1#16 <<< k.toNat) else m).getLsbD n.toNat
        = (m.getLsbD n.toNat || (decide (n = k) && test k)) := by
      cases test k
      · simp
      · simp only [if_true, BitVec.getLsbD_or, getLsbD_stationBit, Bool.and_true]
    rw [List.foldl_cons, ih, one]
    by_cases same : n = k
    · subst same
      cases test n <;> simp
    · simp [same]

theorem mem_stationNumbers : ∀ n : Station, n ∈ stationNumbers := by decide

/-- Which stations the heard mask names (R67). -/
theorem getLsbD_heardMask (station : Station) (v : Snapshot) (n : Station) :
    (heardMask station v).getLsbD n.toNat = true ↔
      (Sixteen.get v.rows n).received = true ∨ n = station ∧ v.ownCompleted = true := by
  have gathered := getLsbD_gathered
    (fun k => (Sixteen.get v.rows k).received || (decide (k = station) && v.ownCompleted)) stationNumbers 0#16 n
  unfold heardMask
  rw [gathered]
  simp [mem_stationNumbers]

/-! ### Beginning an attempt (R11 to R13) -/

theorem tryAttempt_begins {s : State} (expired : s.line.deferralExpired = true) (idle : s.line.idle = true)
    (due : frameDue s = true) (transmitter : s.line.transmitter = .idle) (flight : s.share.flight = none) :
    tryAttempt s = beginAttempt s := if_pos ⟨expired, idle, due, transmitter, flight⟩

theorem tryAttempt_waits {s : State} (h : s.line.deferralExpired = false ∨ s.line.idle = false ∨ frameDue s = false
    ∨ s.line.transmitter ≠ .idle ∨ s.share.flight ≠ none) : tryAttempt s = s := by
  apply if_neg
  rintro ⟨expired, idle, due, transmitter, flight⟩
  rcases h with h | h | h | h | h
  · simp [h] at expired
  · simp [h] at idle
  · simp [h] at due
  · exact h transmitter
  · exact h flight

/-- What beginning an attempt does: the frame goes to the transmitter, the timers begin afresh, and a CLAIM brings the
ask record into line (R13, R69). -/
theorem beginAttempt_eq (s : State) : beginAttempt s = { s with
    line := { s.line with
      transmitter := .sending (frameNow s), sequence := attemptSequence s.line, sentBits := 0, idleGap := 0
      deferralExpired := false, awaitsExpiry := false }
    share := { s.share with ask := if leaveDue s = true then s.share.ask else askRecordNow s } } := by
  unfold beginAttempt
  by_cases leave : leaveDue s = true
  · simp only [leave, if_true]
    rfl
  · simp only [leave]
    rfl

/-- An attempt that is begun, or not, at a deferral expiry or a completion changes the line interface and the ask record
alone. -/
theorem tryAttempt_frame (s : State) :
    ∃ l a, tryAttempt s = { s with line := l, share := { s.share with ask := a } } := by
  unfold tryAttempt
  split
  · exact ⟨_, _, beginAttempt_eq s⟩
  · exact ⟨s.line, s.share.ask, rfl⟩

theorem tryHeldAttempt_frame (s : State) :
    ∃ l a, tryHeldAttempt s = { s with line := l, share := { s.share with ask := a } } := by
  unfold tryHeldAttempt
  split
  · exact ⟨s.line, s.share.ask, rfl⟩
  · exact tryAttempt_frame s

/-- A deferral expiry noted on the line, before its attempt is tried (R12). -/
def State.noteExpiry (s : State) : State := { s with line := { s.line with
  deferralExpired := true, awaitsExpiry := false, activityLeft := 0
  idleGap := max s.line.idleGap (12 + 4 * s.store.station.toNat) } }

theorem expireDeferral_eq {s : State} (idle : s.line.idle = true) (first : s.line.deferralExpired = false) :
    expireDeferral s = tryAttempt s.noteExpiry := if_pos ⟨idle, first⟩

theorem leaveDue_iff (s : State) :
    leaveDue s = true ↔ s.member.state = .parking ∧ appliedTotal s.outputs.channels = 0 := decide_eq_true_iff

/-- The frame carries the ask of the record exactly when the record holds one (R69). -/
theorem askInFrame_eq (s : State) : askInFrame s = if (askRecordNow s).state = .none then none
    else some ⟨(askRecordNow s).amount, (askRecordNow s).priority, (askRecordNow s).tag⟩ := by
  unfold askInFrame
  cases needed : askNow s with
  | none => simp [askRecordNow, needed, AskRecord.empty]
  | some need =>
    have standing : (askRecordNow s).state ≠ .none := by
      obtain ⟨r, amount⟩ := need
      simp only [askRecordNow, needed]
      split
      case isTrue kept =>
        obtain ⟨standing, -⟩ := kept
        exact standing
      case isFalse => simp
    simp [standing]

/-- A frame is due in no other state, with the frame sent, or at three attempts (R10, Table 1-4). -/
theorem frameDue_eq_false {s : State}
    (h : (s.member.state = .start ∨ s.member.state = .listen ∨ s.member.state = .parked ∨ s.member.state = .fault)
      ∨ s.line.sentThisRound = true ∨ 3 ≤ s.line.attempts) : frameDue s = false := by
  rw [← Bool.not_eq_true, frameDue_iff]
  rintro ⟨state, unsent, attempts⟩
  rcases h with (h | h | h | h) | h | h
  case inr.inl => simp [h] at unsent
  case inr.inr => omega
  all_goals simp [h] at state

/-- A completion with a held expiry and a frame due begins its attempt (R12, R168). -/
theorem tryHeldAttempt_sends {s : State} (expired : s.line.deferralExpired = true) (idle : s.line.idle = true)
    (due : frameDue s = true) (transmitter : s.line.transmitter = .idle) (flight : s.share.flight = none)
    (came : s.member.state ≠ .joining ∨ s.line.awaitsExpiry = false) :
    (tryHeldAttempt s).line.transmitter = .sending (frameNow s) := by
  rw [tryHeldAttempt_of_expired came, tryAttempt_begins expired idle due transmitter flight, beginAttempt_eq]

end Sys2Proof.Machine
end

section
/-! PROOFS. A completion up to its attempt, and a deferral expiry: the attempt it begins, and the expiry kept. -/

namespace Sys2Proof.Machine

/-! ### A completion, part by part (R46) -/

/-- The engine that a completion leaves (R46). -/
def State.newEngine (s : State) : ShareEngine := completeEngine s.store.station s.config.capacity s.freeIndex s.share

/-- The results of the snapshot in place, HOLD and SHORTFALL set where they changed. -/
def State.withResults (s : State) : State :=
  raiseIf (decide (s.newEngine.shortfall.mark ≠ s.share.shortfall.mark
      ∨ s.newEngine.shortfall.residual ≠ s.share.shortfall.residual)) .shortfall
    (raiseIf (decide (s.newEngine.hold ≠ s.share.hold)) .hold
      { s with
        share := s.newEngine
        freeIndex := if (ownAsk s.share.snapshot.own).isNone then s.freeIndex + 1 else s.freeIndex })

/-- A commit notice handed on, where the decision gives one (R72, R73). -/
def noticeCommit : Option Owner → State → State
  | none, s => s
  | some owner, s => takeCommitNotice owner s

/-- A shed target handed on, where there is a share to shed (R59). -/
def handShed (e : ShareEngine) (s : State) : State := if 0 < e.shortfall.share then shedCut e.result.shedTarget s else s

/-- A completion up to the attempt that a held expiry tries. -/
def State.completed (s : State) : State :=
  handShed s.newEngine (noticeCommit (committedOwner s.store.station s.config.capacity s.share) s.withResults)

theorem completeShare_eq {s : State} (flight : s.share.flight.isSome = true) :
    completeShare s = tryHeldAttempt s.completed := by
  obtain ⟨k, hk⟩ := Option.isSome_iff_exists.mp flight
  unfold completeShare State.completed noticeCommit
  rw [hk]
  dsimp only
  cases committedOwner s.store.station s.config.capacity s.share with
  | none => rfl
  | some owner => rfl

theorem withResults_frame (s : State) : ∃ n f, s.withResults
    = { (s.withDemand s.demand s.outputs.channels f) with share := s.newEngine, freeIndex := n } := by
  unfold State.withResults
  generalize decide (s.newEngine.hold ≠ s.share.hold) = a
  generalize decide (s.newEngine.shortfall.mark ≠ s.share.shortfall.mark
    ∨ s.newEngine.shortfall.residual ≠ s.share.shortfall.residual) = b
  cases a <;> cases b <;> exact ⟨_, _, rfl⟩

theorem noticeCommit_frame (o : Option Owner) (s : State) : ∃ d chs f, noticeCommit o s = s.withDemand d chs f := by
  cases o with
  | none => exact ⟨s.demand, s.outputs.channels, s.port.flags, rfl⟩
  | some owner => exact takeCommitNotice_frame owner s

theorem handShed_frame (e : ShareEngine) (s : State) : ∃ d chs f, handShed e s = s.withDemand d chs f := by
  unfold handShed
  split
  · exact shedCut_frame _ s
  · exact ⟨s.demand, s.outputs.channels, s.port.flags, rfl⟩

/-- What a completion changes before its attempt: the share engine, the count of free values, and what a commit or a cut
can change. -/
theorem completed_frame (s : State) : ∃ n d chs f,
    s.completed = { (s.withDemand d chs f) with share := s.newEngine, freeIndex := n } := by
  obtain ⟨n, f, results⟩ := withResults_frame s
  obtain ⟨d, chs, f', noticed⟩ :=
    noticeCommit_frame (committedOwner s.store.station s.config.capacity s.share) s.withResults
  obtain ⟨d', chs', f'', handed⟩ := handShed_frame s.newEngine
    (noticeCommit (committedOwner s.store.station s.config.capacity s.share) s.withResults)
  exact ⟨n, d', chs', f'', by unfold State.completed; rw [handed, noticed, results]⟩

/-- The attempt that a completion begins with a held expiry (R12, R168). -/
theorem completeShare_sends {s : State} (flight : s.share.flight.isSome = true)
    (expired : s.line.deferralExpired = true) (idle : s.line.idle = true) (due : frameDue s = true)
    (transmitter : s.line.transmitter = .idle) (came : s.member.state ≠ .joining ∨ s.line.awaitsExpiry = false) :
    ∃ f, (completeShare s).line.transmitter = .sending f := by
  obtain ⟨n, d, chs, f, frame⟩ := completed_frame s
  have due' : frameDue s.completed = true := by rw [frame]; exact due
  refine ⟨frameNow s.completed, ?_⟩
  rw [completeShare_eq flight]
  exact tryHeldAttempt_sends (by rw [frame]; exact expired) (by rw [frame]; exact idle) due'
    (by rw [frame]; exact transmitter) (by rw [frame]; rfl) (by rw [frame]; exact came)

/-! ### A deferral expiry -/

/-- An expiry on an idle line begins the attempt with the frame that is due (R11, R13). -/
theorem expireDeferral_begins {s : State} (idle : s.line.idle = true) (first : s.line.deferralExpired = false)
    (due : frameDue s = true) (transmitter : s.line.transmitter = .idle) (flight : s.share.flight = none) :
    expireDeferral s = { s with
      line := { s.line with
        transmitter := .sending (frameNow s), sequence := attemptSequence s.line, sentBits := 0, idleGap := 0
        activityLeft := 0, deferralExpired := false, awaitsExpiry := false }
      share := { s.share with ask := if leaveDue s = true then s.share.ask else askRecordNow s } } := by
  rw [expireDeferral_eq idle first, tryAttempt_begins (s := s.noteExpiry) rfl idle due transmitter flight,
    beginAttempt_eq]
  rfl

/-- An expiry on an idle line with no frame due, a busy transmitter or a computation in flight is kept (R12). -/
theorem expireDeferral_kept {s : State} (idle : s.line.idle = true) (first : s.line.deferralExpired = false)
    (h : frameDue s = false ∨ s.line.transmitter ≠ .idle ∨ s.share.flight ≠ none) :
    expireDeferral s = s.noteExpiry := by
  rw [expireDeferral_eq idle first]
  exact tryAttempt_waits (s := s.noteExpiry) (.inr (.inr h))

end Sys2Proof.Machine

section
open Sys2Proof Sys2Proof.Machine

/-- Settles O31: an expiry that begins an attempt, one that is kept, and a kept one at the completion. -/
theorem deferralExpiryBuildsTheDueFrame : Obligations.DeferralExpiryBuildsTheDueFrame := by
  refine ⟨?_, ?_, ?_⟩
  · intro s idle first state unsent attempts transmitter flight
    have due : frameDue s = true := (frameDue_iff s).mpr ⟨state, unsent, attempts⟩
    rw [exec_deferralExpiry, execDeferralExpiry, expireDeferral_begins idle first due transmitter flight]
    refine ⟨_, rfl, rfl, ?_, ?_⟩
    · intro leave
      have leaves : leaveDue s = true := (leaveDue_iff s).mpr leave
      simp [frameNow, leaves]
    · intro claim
      have claims : ¬leaveDue s = true := fun h => claim ((leaveDue_iff s).mp h)
      simp only [frameNow, if_neg claims]
      exact ⟨claimNow s, rfl, rfl, rfl, decide_eq_true_iff, decide_eq_true_iff, rfl, rfl, rfl, rfl,
        getLsbD_heardMask _ _, fun _ => heldPriority_le, heldPriority_attained, heldPriority_eq_zero,
        fun none => (askInFrame_eq s).trans (if_pos none), fun standing => (askInFrame_eq s).trans (if_neg standing)⟩
  · intro s idle first kept
    rw [exec_deferralExpiry, execDeferralExpiry, expireDeferral_kept idle first]
    · rfl
    · rcases kept with h | h | h | h | h
      · exact .inl (frameDue_eq_false (.inl h))
      · exact .inl (frameDue_eq_false (.inr (.inl h)))
      · exact .inl (frameDue_eq_false (.inr (.inr h)))
      · exact .inr (.inl h)
      · exact .inr (.inr (Option.isSome_iff_ne_none.mp h))
  · intro s idle first state unsent attempts transmitter flight
    have due : frameDue s = true := (frameDue_iff s).mpr ⟨state, unsent, attempts⟩
    have kept := expireDeferral_kept idle first (.inr (.inr (Option.isSome_iff_ne_none.mp flight)))
    obtain ⟨f, sends⟩ := completeShare_sends (s := s.noteExpiry) flight rfl idle due transmitter (.inr rfl)
    exact ⟨s.noteExpiry, completeShare s.noteExpiry, congrArg Host.Outcome.next kept, rfl, transmitter, f, sends⟩

end
end

section
/-! PROOFS. What the share computation finds: the walks of the shed list and the allocation as sums (R48 to R58,
R71). -/

namespace Sys2Proof.Machine

/-! ### The sixteen rows -/

/-- The things of all station numbers, in order. -/
theorem Sixteen.toList_eq {α : Type} (x : Sixteen α) : Sixteen.toList x = stationNumbers.map (Sixteen.get x) := rfl

theorem Sixteen.mem_toList {α : Type} (x : Sixteen α) (a : α) : a ∈ Sixteen.toList x ↔ ∃ n, Sixteen.get x n = a := by
  rw [Sixteen.toList_eq, List.mem_map]
  exact ⟨fun ⟨n, _, h⟩ => ⟨n, h⟩, fun ⟨n, h⟩ => ⟨n, mem_stationNumbers n, h⟩⟩

theorem Row.takesPart_iff (r : Row) :
    r.takesPart = true ↔ r.state = .live ∧ r.joining = false ∧ r.mismatch = false := by
  simp [Row.takesPart, and_assoc]

/-! ### The shed list (R53, R54) -/

theorem shedBefore_eq_false_iff (a b : ShedEntry) : shedBefore a b = false ↔
    b.priority < a.priority ∨ (b.priority = a.priority ∧ a.station ≤ b.station) := by
  rw [← Bool.not_eq_true]
  simp only [shedBefore, Bool.or_eq_true, Bool.and_eq_true, decide_eq_true_eq]
  bv_omega

theorem shedBefore_negTrans (a b c : ShedEntry) (hab : shedBefore a b = false) (hbc : shedBefore b c = false) :
    shedBefore a c = false := by
  rw [shedBefore_eq_false_iff] at *
  bv_omega

/-- What a walk leaves to be shed (R54). -/
theorem shedWalk_remaining (l : List ShedEntry) (n : Nat) : (shedWalk l n).2 = n - (l.map ShedEntry.surplus).sum := by
  induction l generalizing n with
  | nil => simp [shedWalk]
  | cons e rest ih =>
    simp only [shedWalk, ih, List.map_cons, List.sum_cons]
    omega

/-- The own record takes nothing from a walk that does not hold it. -/
theorem shedWalk_others {l : List ShedEntry} (others : ∀ e ∈ l, e.own = false) (n : Nat) : (shedWalk l n).1 = 0 := by
  induction l generalizing n with
  | nil => rfl
  | cons e rest ih =>
    obtain ⟨he, hrest⟩ := List.forall_mem_cons.mp others
    simp [shedWalk, he, ih hrest]

/-- What the own record takes from a walk: at most its surplus, of what those ahead leave (R54). -/
theorem shedWalk_own {ahead behind : List ShedEntry} {own : ShedEntry} (isOwn : own.own = true)
    (hahead : ∀ e ∈ ahead, e.own = false) (hbehind : ∀ e ∈ behind, e.own = false) (n : Nat) :
    (shedWalk (ahead ++ own :: behind) n).1 = min own.surplus (n - (ahead.map ShedEntry.surplus).sum) := by
  induction ahead generalizing n with
  | nil => simp [shedWalk, isOwn, shedWalk_others hbehind]
  | cons e rest ih =>
    obtain ⟨he, hrest⟩ := List.forall_mem_cons.mp hahead
    simp only [List.cons_append, shedWalk, he, ih hrest, List.map_cons, List.sum_cons, Bool.false_eq_true, if_false]
    congr 1
    omega

/-- The entries that the rows give the shed list. -/
def rowShedEntries (rows : Sixteen Row) : List ShedEntry := stationNumbers.filterMap (rowShedEntry rows)

theorem rowShedEntry_eq_some {rows : Sixteen Row} {n : Station} {e : ShedEntry} (h : rowShedEntry rows n = some e) :
    e = { station := n, priority := (Sixteen.get rows n).priority, surplus := shedSurplus (Sixteen.get rows n)
          own := false } := by
  unfold rowShedEntry at h
  dsimp only at h
  split at h
  case isTrue listed =>
    obtain ⟨part, -⟩ := listed
    rw [← Option.some.inj h, shedSurplus, if_pos ((Row.takesPart_iff _).mp part)]
  case isFalse => cases h

/-- A row that is not on the shed list has no surplus there (R53). -/
theorem shedSurplus_of_none {rows : Sixteen Row} {n : Station} (h : rowShedEntry rows n = none) :
    shedSurplus (Sixteen.get rows n) = 0 := by
  unfold rowShedEntry at h
  dsimp only at h
  split at h
  case isTrue => cases h
  case isFalse unlisted =>
    unfold shedSurplus
    split
    case isTrue part =>
      have le : ¬(Sixteen.get rows n).floor < (Sixteen.get rows n).held :=
        fun lt => unlisted ⟨(Row.takesPart_iff _).mpr part, lt⟩
      omega
    case isFalse => rfl

theorem rowShedEntries_own {rows : Sixteen Row} : ∀ e ∈ rowShedEntries rows, e.own = false := by
  intro e he
  obtain ⟨n, -, hn⟩ := List.mem_filterMap.mp he
  rw [rowShedEntry_eq_some hn]

/-- A sum of surpluses over the rows' entries is a sum over the rows, with 0 for those that are not on the list. -/
theorem sum_rowShedEntries (rows : Sixteen Row) (P : Station → Priority → Bool) :
    (((rowShedEntries rows).filter fun e => P e.station e.priority).map ShedEntry.surplus).sum
      = (stationNumbers.map fun n =>
          if P n (Sixteen.get rows n).priority = true then shedSurplus (Sixteen.get rows n) else 0).sum := by
  unfold rowShedEntries
  rw [sum_map_filter, sum_map_filterMap]
  congr 1
  apply List.map_congr_left
  intro n _
  cases h : rowShedEntry rows n with
  | none => simp [shedSurplus_of_none h]
  | some e => simp [rowShedEntry_eq_some h]

/-- The surplus of the own record. -/
def ownSurplus : Option OwnRecord → Nat
  | none => 0
  | some o => o.body.held - o.body.floor

/-- What the shed list holds in all: the surpluses of the rows and the own one (R53). -/
theorem sum_shedList (station : Station) (v : Snapshot) : ((shedList station v).map ShedEntry.surplus).sum
    = ((Sixteen.toList v.rows).map shedSurplus).sum + ownSurplus v.own := by
  have rows := sum_rowShedEntries v.rows fun _ _ => true
  simp only [List.filter_true, if_true] at rows
  have own : ((ownShedEntry station v.own).map ShedEntry.surplus).sum = ownSurplus v.own := by
    unfold ownShedEntry ownSurplus
    cases v.own with
    | none => rfl
    | some o =>
      dsimp only
      split
      · rfl
      · simp
        omega
  unfold shedList
  rw [((putInOrder_perm shedBefore _).map ShedEntry.surplus).sum_eq, List.map_append, List.sum_append, own,
    show stationNumbers.filterMap (rowShedEntry v.rows) = rowShedEntries v.rows from rfl, rows, Sixteen.toList_eq,
    List.map_map]
  rfl

/-- The own record's entry, where it has a surplus (R53). -/
def ownEntry (station : Station) (o : OwnRecord) : ShedEntry :=
  { station := station, priority := o.body.priority, surplus := o.body.held - o.body.floor, own := true }

/-- Where the own entry stands in the shed list: behind the rows that `surplusAhead` counts. -/
theorem shedList_split (station : Station) (rows : Sixteen Row) (o : OwnRecord) : ∃ ahead behind,
    putInOrder shedBefore (rowShedEntries rows ++ [ownEntry station o]) = ahead ++ ownEntry station o :: behind
      ∧ (∀ e ∈ ahead, e.own = false) ∧ (∀ e ∈ behind, e.own = false)
      ∧ (ahead.map ShedEntry.surplus).sum = surplusAhead station rows o.body := by
  obtain ⟨ahead, behind, split, perm, hahead, hbehind⟩ :=
    putInOrder_snoc shedBefore_negTrans (ownEntry station o) (rowShedEntries rows)
  have others : ∀ e ∈ ahead ++ behind, e.own = false := fun e he => rowShedEntries_own e (perm.mem_iff.mp he)
  obtain ⟨aheadOthers, behindOthers⟩ := List.forall_mem_append.mp others
  have picked : ahead.Perm ((rowShedEntries rows).filter fun e =>
      decide (e.priority < o.body.priority ∨ (e.priority = o.body.priority ∧ station ≤ e.station))) := by
    refine perm_filter_of_parts _ perm (fun e he => ?_) (fun e he => ?_)
    · have h := (shedBefore_eq_false_iff _ _).mp (hahead e he)
      simpa [ownEntry] using h
    · have h := (shedBefore_eq_false_iff (ownEntry station o) e).not.mp (by simpa using hbehind e he)
      simpa [ownEntry] using h
  have sum := sum_rowShedEntries rows fun n p => decide (p < o.body.priority ∨ (p = o.body.priority ∧ station ≤ n))
  simp only [decide_eq_true_eq] at sum
  exact ⟨ahead, behind, split, aheadOthers, behindOthers, by rw [(picked.map ShedEntry.surplus).sum_eq, sum]; rfl⟩

/-- The own shed share: what the excess leaves after the surpluses ahead of the own record, at most its surplus
(R54). -/
theorem shedWalk_shedList (station : Station) (v : Snapshot) (n : Nat) : (shedWalk (shedList station v) n).1
    = match v.own with
      | none => 0
      | some o => min (o.body.held - o.body.floor) (n - surplusAhead station v.rows o.body) := by
  have rowsAlone : (shedWalk (putInOrder shedBefore (rowShedEntries v.rows ++ [])) n).1 = 0 := by
    rw [List.append_nil]
    exact shedWalk_others (fun e he => rowShedEntries_own e ((putInOrder_perm _ _).mem_iff.mp he)) n
  unfold shedList ownShedEntry
  cases v.own with
  | none => exact rowsAlone
  | some o =>
    dsimp only
    split
    case isTrue surplus =>
      obtain ⟨ahead, behind, split, aheadOthers, behindOthers, sum⟩ := shedList_split station v.rows o
      calc _ = (shedWalk (ahead ++ ownEntry station o :: behind) n).1 := by rw [← split]; rfl
        _ = min (o.body.held - o.body.floor) (n - surplusAhead station v.rows o.body) := by
          rw [shedWalk_own rfl aheadOthers behindOthers, sum]
          rfl
    case isFalse level =>
      have zero : o.body.held - o.body.floor = 0 := by omega
      rw [zero, Nat.zero_min]
      exact rowsAlone

/-! ### The allocation (R56 to R58) -/

theorem askBefore_eq_false_iff (a b : AskEntry) : askBefore a b = false ↔
    a.priority < b.priority ∨ (b.priority = a.priority ∧ b.station ≤ a.station) := by
  rw [← Bool.not_eq_true]
  simp only [askBefore, Bool.or_eq_true, Bool.and_eq_true, decide_eq_true_eq]
  bv_omega

theorem askBefore_negTrans (a b c : AskEntry) (hab : askBefore a b = false) (hbc : askBefore b c = false) :
    askBefore a c = false := by
  rw [askBefore_eq_false_iff] at *
  bv_omega

/-- An allocation without an own ask grants none. -/
theorem grantedAsks_others {l : List AskEntry} (others : ∀ e ∈ l, e.own = false) (n : Nat) :
    (grantedAsks l n).any (fun e => e.own) = false := by
  induction l generalizing n with
  | nil => rfl
  | cons e rest ih =>
    obtain ⟨he, hrest⟩ := List.forall_mem_cons.mp others
    unfold grantedAsks
    split
    · simpa [he] using ih hrest (n - e.amount)
    · rfl

/-- The own ask is granted exactly when it fits with the asks ahead of it: the walk stops at the first that does
not (R57). -/
theorem grantedAsks_own {ahead behind : List AskEntry} {own : AskEntry} (isOwn : own.own = true)
    (hahead : ∀ e ∈ ahead, e.own = false) (n : Nat) :
    (grantedAsks (ahead ++ own :: behind) n).any (fun e => e.own) = true
      ↔ (ahead.map AskEntry.amount).sum + own.amount ≤ n := by
  induction ahead generalizing n with
  | nil =>
    simp only [List.nil_append, grantedAsks, List.map_nil, List.sum_nil, Nat.zero_add]
    split <;> simp_all
  | cons e rest ih =>
    obtain ⟨he, hrest⟩ := List.forall_mem_cons.mp hahead
    simp only [List.cons_append, grantedAsks, List.map_cons, List.sum_cons]
    split
    case isTrue fits =>
      rw [List.any_cons, he, Bool.false_or, ih hrest]
      omega
    case isFalse tooMuch =>
      simp only [List.any_nil, Bool.false_eq_true, false_iff]
      omega

/-- The entries that the rows give the allocation. -/
def rowAskEntries (rows : Sixteen Row) : List AskEntry := stationNumbers.filterMap (rowAskEntry rows)

/-- What a row's ask adds to the allocation, 0 when it is not eligible or comes behind (R56). -/
def eligibleAmount (P : Station → Priority → Bool) (n : Station) (r : Row) : Nat :=
  match r.ask with
  | none => 0
  | some a =>
    if r.state = .live ∧ r.joining = false ∧ r.mismatch = false ∧ r.hold = false ∧ P n a.priority = true
    then a.amount else 0

theorem rowAskEntries_own {rows : Sixteen Row} : ∀ e ∈ rowAskEntries rows, e.own = false := by
  intro e he
  obtain ⟨n, -, hn⟩ := List.mem_filterMap.mp he
  obtain ⟨a, -, rfl⟩ := Option.map_eq_some_iff.mp hn
  rfl

/-- A sum of amounts over the rows' entries is a sum over the rows, with 0 for those that are not eligible. -/
theorem sum_rowAskEntries (rows : Sixteen Row) (P : Station → Priority → Bool) :
    (((rowAskEntries rows).filter fun e => P e.station e.priority).map AskEntry.amount).sum
      = (stationNumbers.map fun n => eligibleAmount P n (Sixteen.get rows n)).sum := by
  unfold rowAskEntries
  rw [sum_map_filter, sum_map_filterMap]
  congr 1
  apply List.map_congr_left
  intro n _
  unfold rowAskEntry Row.eligibleAsk eligibleAmount
  by_cases part : (Sixteen.get rows n).takesPart = true ∧ (Sixteen.get rows n).hold = false
  · obtain ⟨⟨live, joined, matched⟩, noHold⟩ := (Row.takesPart_iff _).and Iff.rfl |>.mp part
    rw [if_pos part]
    cases h : (Sixteen.get rows n).ask <;> simp [live, joined, matched, noHold]
  · rw [if_neg part]
    cases h : (Sixteen.get rows n).ask with
    | none => rfl
    | some a =>
      refine (if_neg ?_).symm
      rintro ⟨live, joined, matched, noHold, -⟩
      exact part ⟨(Row.takesPart_iff _).mpr ⟨live, joined, matched⟩, noHold⟩

/-- The own ask's entry. -/
def ownAskOf (station : Station) (a : Ask) : AskEntry :=
  { station := station, priority := a.priority, amount := a.amount, own := true }

/-- Where the own ask stands in the allocation: behind the rows' asks that `askedAhead` counts. -/
theorem askList_split (station : Station) (rows : Sixteen Row) (a : Ask) : ∃ ahead behind,
    putInOrder askBefore (rowAskEntries rows ++ [ownAskOf station a]) = ahead ++ ownAskOf station a :: behind
      ∧ (∀ e ∈ ahead, e.own = false)
      ∧ (ahead.map AskEntry.amount).sum = askedAhead station rows a := by
  obtain ⟨ahead, behind, split, perm, hahead, hbehind⟩ :=
    putInOrder_snoc askBefore_negTrans (ownAskOf station a) (rowAskEntries rows)
  have others : ∀ e ∈ ahead ++ behind, e.own = false := fun e he => rowAskEntries_own e (perm.mem_iff.mp he)
  obtain ⟨aheadOthers, -⟩ := List.forall_mem_append.mp others
  have picked : ahead.Perm ((rowAskEntries rows).filter fun e =>
      decide (a.priority < e.priority ∨ (e.priority = a.priority ∧ e.station ≤ station))) := by
    refine perm_filter_of_parts _ perm (fun e he => ?_) (fun e he => ?_)
    · have h := (askBefore_eq_false_iff _ _).mp (hahead e he)
      simpa [ownAskOf] using h
    · have h := (askBefore_eq_false_iff (ownAskOf station a) e).not.mp (by simpa using hbehind e he)
      simpa [ownAskOf] using h
  have sum := sum_rowAskEntries rows fun n p => decide (a.priority < p ∨ (p = a.priority ∧ n ≤ station))
  refine ⟨ahead, behind, split, aheadOthers, ?_⟩
  rw [(picked.map AskEntry.amount).sum_eq, sum]
  simp only [eligibleAmount, decide_eq_true_eq]
  rfl

/-- The own ask is granted exactly without shortfall and when it fits with the asks ahead of it (R57, R58). -/
theorem ownGranted_iff (station : Station) (v : Snapshot) (capacity : Nat) : ownGranted station v capacity = true ↔
    countedTotal v ≤ capacity ∧ ∃ o a, v.own = some o ∧ o.body.ask = some a
      ∧ askedAhead station v.rows a + a.amount ≤ headroomOf v capacity := by
  unfold ownGranted
  rw [Bool.and_eq_true, decide_eq_true_eq]
  refine and_congr Iff.rfl ?_
  unfold askList ownAskEntry
  have noAsk : (grantedAsks (putInOrder askBefore (rowAskEntries v.rows ++ [])) (headroomOf v capacity)).any
      (fun e => e.own) = false := by
    rw [List.append_nil]
    exact grantedAsks_others (fun e he => rowAskEntries_own e ((putInOrder_perm _ _).mem_iff.mp he)) _
  cases carried : ownAsk v.own with
  | none =>
    have none : ¬∃ o a, v.own = some o ∧ o.body.ask = some a
        ∧ askedAhead station v.rows a + a.amount ≤ headroomOf v capacity := by
      rintro ⟨o, a, own, ask, -⟩
      simp [ownAsk, own, ask] at carried
    exact iff_of_false (by rw [Bool.not_eq_true]; exact noAsk) none
  | some a =>
    obtain ⟨o, own, ask⟩ := Option.bind_eq_some_iff.mp carried
    obtain ⟨ahead, behind, split, aheadOthers, sum⟩ := askList_split station v.rows a
    have granted := grantedAsks_own (behind := behind)
      (own := ownAskOf station a) rfl aheadOthers (headroomOf v capacity)
    rw [← split, sum] at granted
    refine granted.trans ⟨fun fits => ⟨o, a, own, ask, fits⟩, ?_⟩
    rintro ⟨o', a', own', ask', fits⟩
    obtain rfl : o = o' := Option.some.inj (own.symm.trans own')
    obtain rfl : a = a' := Option.some.inj (ask.symm.trans ask')
    exact fits

/-! ### Hold and view agreement (R50, R71) -/

theorem findsHold_iff (v : Snapshot) (capacity : Nat) : findsHold v capacity = true ↔
    (∃ n, (Sixteen.get v.rows n).state = .live ∧ (Sixteen.get v.rows n).mismatch = true)
      ∨ capacity < floorTotal v := by
  simp [findsHold, List.any_eq_true, Sixteen.mem_toList]

theorem viewAgreement_iff (v : Snapshot) (compare : Half) : viewAgreement v compare = true ↔ ∀ n,
    (Sixteen.get v.rows n).state = .live → (Sixteen.get v.rows n).joining = false →
    (Sixteen.get v.rows n).mismatch = false →
    (Sixteen.get v.rows n).received = true ∧ (Sixteen.get v.rows n).digest = compare := by
  have one : ∀ r : Row, (!r.takesPart || (r.received && decide (r.digest = compare))) = true ↔
      (r.state = .live → r.joining = false → r.mismatch = false → r.received = true ∧ r.digest = compare) := by
    intro r
    rw [Bool.or_eq_true, Bool.not_eq_true', ← Bool.not_eq_true, Row.takesPart_iff, ← imp_iff_not_or, Bool.and_eq_true,
      decide_eq_true_eq, and_imp, and_imp]
  unfold viewAgreement
  simp only [List.all_eq_true, Sixteen.mem_toList, one, forall_exists_index, forall_apply_eq_imp_iff]

end Sys2Proof.Machine
end

section
/-! PROOFS. A completion: its commit, its shed target, its event flags, and its held attempt. -/

namespace Sys2Proof.Machine

/-! ### The own ask decision (R72, R73) -/

theorem ownAsk_eq_some (own : Option OwnRecord) (a : Ask) :
    ownAsk own = some a ↔ ∃ o, own = some o ∧ o.body.ask = some a :=
  Option.bind_eq_some_iff

theorem grantMatches_iff (granted : Bool) (carried : Option Ask) (a : AskRecord) :
    grantMatches granted carried a = true ↔
    granted = true ∧ ∃ c, carried = some c ∧ c.tag = a.tag ∧ c.amount = a.amount := by
  cases carried <;> simp [grantMatches, and_assoc]

theorem decideAsk_commits_iff (fits ownCompleted agreement : Bool) (a : AskRecord) :
    (decideAsk fits ownCompleted agreement a).2 = true ↔
      a.state ≠ .none ∧ fits = true ∧ a.grantedBefore = true ∧ ownCompleted = true ∧ agreement = true := by
  by_cases state : a.state = .none
  · simp [decideAsk, state]
  · cases fits
    · simp [decideAsk, state]
    · unfold decideAsk
      rw [if_neg state, if_pos rfl]
      split
      case isTrue all => simpa [state, and_assoc] using all
      case isFalse some => simpa [state, and_assoc] using some

/-- R73's conditions at a completion. -/
def State.commits (s : State) : Prop :=
  s.share.ask.state ≠ .none
    ∧ (∃ o a, s.share.snapshot.own = some o ∧ o.body.ask = some a
        ∧ a.tag = s.share.ask.tag ∧ a.amount = s.share.ask.amount)
    ∧ s.newEngine.result.granted = true ∧ s.newEngine.hold = false ∧ s.newEngine.shortfall.mark = false
    ∧ s.share.ask.grantedBefore = true ∧ s.share.snapshot.ownCompleted = true ∧ s.newEngine.result.agreement = true

/-- A completion gives a commit notice only where R73's conditions all hold. -/
theorem commits_of_owner {s : State} {owner : Owner}
    (h : committedOwner s.store.station s.config.capacity s.share = some owner) : s.commits := by
  unfold committedOwner at h
  dsimp only at h
  split at h
  case isFalse => cases h
  case isTrue decided =>
    obtain ⟨state, fits, before, completed, agreement⟩ := (decideAsk_commits_iff _ _ _ _).mp decided
    rw [Bool.and_eq_true, Bool.and_eq_true, Bool.not_eq_true', Bool.not_eq_true', grantMatches_iff] at fits
    obtain ⟨⟨⟨granted, a, carried, tag, amount⟩, hold⟩, mark⟩ := fits
    obtain ⟨o, own, ask⟩ := (ownAsk_eq_some _ _).mp carried
    exact ⟨state, ⟨o, a, own, ask, tag, amount⟩, granted, hold, mark, before, completed, agreement⟩

/-! ### The shed target (R59) -/

/-- There is a share to shed only under shortfall (R54). -/
theorem newEngine_mark_of_share {s : State} (h : 0 < s.newEngine.shortfall.share) :
    s.newEngine.shortfall.mark = true := by
  by_cases short : s.config.capacity < countedTotal s.share.snapshot
  · exact decide_eq_true short
  · have none : s.newEngine.shortfall.share = 0 := congrArg Prod.fst (if_neg short)
    omega

theorem handShed_of_share_zero {e : ShareEngine} (h : e.shortfall.share = 0) (s : State) : handShed e s = s := by
  simp [handShed, h]

/-- A shed cut under shortfall lowers the channels and sets SHED, and its head re-check grants nothing (R106, R122). -/
theorem shedCut_of_shortfall (target : Nat) {s : State} (h : s.share.shortfall.mark = true) : shedCut target s
    = raiseIf (decide (target < committedTotal s.outputs.channels)) .shed (onChannels (cutTo target) s) :=
  shedCut_of_noGrant target (headRecheck_of_hold _ (.inr h))

/-- A commit and a shed target are never handed on by the same completion: without shortfall there is no share to
shed. -/
theorem completed_of_owner {s : State} {owner : Owner}
    (h : committedOwner s.store.station s.config.capacity s.share = some owner) :
    s.completed = takeCommitNotice owner s.withResults := by
  obtain ⟨-, -, -, -, mark, -, -, -⟩ := commits_of_owner h
  have share : s.newEngine.shortfall.share = 0 := by
    by_contra above
    have := newEngine_mark_of_share (s := s) (Nat.pos_of_ne_zero above)
    simp [mark] at this
  unfold State.completed
  rw [handShed_of_share_zero share, h]
  rfl

theorem withResults_share (s : State) : s.withResults.share = s.newEngine := by simp [State.withResults]

/-- A completion that commits nothing hands on its shed target alone. -/
theorem completed_of_noOwner {s : State} (h : committedOwner s.store.station s.config.capacity s.share = none) :
    s.completed = if 0 < s.newEngine.shortfall.share
      then raiseIf (decide (s.newEngine.result.shedTarget < committedTotal s.withResults.outputs.channels)) .shed
        (onChannels (cutTo s.newEngine.result.shedTarget) s.withResults)
      else s.withResults := by
  unfold State.completed handShed
  rw [h]
  by_cases above : 0 < s.newEngine.shortfall.share
  · rw [if_pos above, if_pos above]
    exact shedCut_of_shortfall _ (by rw [noticeCommit, withResults_share]; exact newEngine_mark_of_share above)
  · rw [if_neg above, if_neg above]
    rfl

/-! ### The event flags of a completion -/

theorem flagSet_withResults (e : Event) (s : State) : flagSet e s.withResults = (flagSet e s
    || (decide (s.newEngine.hold ≠ s.share.hold) && decide (e = .hold))
    || (decide (s.newEngine.shortfall.mark ≠ s.share.shortfall.mark
        ∨ s.newEngine.shortfall.residual ≠ s.share.shortfall.residual) && decide (e = .shortfall))) := by
  unfold State.withResults
  rw [flagSet_raiseIf, flagSet_raiseIf]
  rfl

/-- A commit notice that is taken shortens the queue and sets RESULT; any other changes nothing (R107). -/
theorem takeCommitNotice_cases (owner : Owner) (s : State) : takeCommitNotice owner s = s
    ∨ ((takeCommitNotice owner s).demand.requests.length < s.demand.requests.length
      ∧ ∀ e, flagSet e (takeCommitNotice owner s) = (flagSet e s || decide (e = .result))) := by
  unfold takeCommitNotice
  cases queue : s.demand.requests with
  | nil => exact .inl rfl
  | cons r rest =>
    dsimp only
    split
    · exact .inr ⟨Nat.lt_succ_self _, fun e => flagSet_raise _ _ _⟩
    · exact .inl rfl

/-- A completion sets HOLD and SHORTFALL where they change, and of the others RESULT and SHED at most. -/
theorem flagSet_completed {e : Event} (hr : e ≠ .result) (hs : e ≠ .shed) (s : State) :
    flagSet e s.completed = (flagSet e s
      || (decide (s.newEngine.hold ≠ s.share.hold) && decide (e = .hold))
      || (decide (s.newEngine.shortfall.mark ≠ s.share.shortfall.mark
          ∨ s.newEngine.shortfall.residual ≠ s.share.shortfall.residual) && decide (e = .shortfall))) := by
  rw [← flagSet_withResults]
  cases h : committedOwner s.store.station s.config.capacity s.share with
  | some owner =>
    rw [completed_of_owner h]
    rcases takeCommitNotice_cases owner s.withResults with same | ⟨-, flags⟩
    · rw [same]
    · simp [flags, hr]
  | none =>
    rw [completed_of_noOwner h]
    split
    · rw [flagSet_raiseIf]
      simp [hs, flagSet]
    · rfl

/-- SHED stays where there is no share to shed. -/
theorem flagSet_shed_completed {s : State} (h : s.newEngine.shortfall.share = 0) :
    flagSet .shed s.completed = flagSet .shed s := by
  have results : flagSet .shed s.withResults = flagSet .shed s := by simp [flagSet_withResults]
  cases owned : committedOwner s.store.station s.config.capacity s.share with
  | some owner =>
    rw [completed_of_owner owned]
    rcases takeCommitNotice_cases owner s.withResults with same | ⟨-, flags⟩
    · rw [same, results]
    · simp [flags, results]
  | none => rw [completed_of_noOwner owned, if_neg (by omega), results]

theorem withResults_demand (s : State) : s.withResults.demand = s.demand := by simp [State.withResults]

theorem withResults_outputs (s : State) : s.withResults.outputs = s.outputs := by simp [State.withResults]

/-- RESULT stays where the queue and its results stay. -/
theorem flagSet_result_completed {s : State} (h : s.completed.demand = s.demand) :
    flagSet .result s.completed = flagSet .result s := by
  have results : flagSet .result s.withResults = flagSet .result s := by simp [flagSet_withResults]
  cases owned : committedOwner s.store.station s.config.capacity s.share with
  | some owner =>
    rw [completed_of_owner owned] at h ⊢
    rcases takeCommitNotice_cases owner s.withResults with same | ⟨shorter, -⟩
    · rw [same, results]
    · rw [h, withResults_demand] at shorter
      exact absurd shorter (Nat.lt_irrefl _)
  | none =>
    rw [completed_of_noOwner owned]
    split
    · rw [flagSet_raiseIf]
      simpa [flagSet] using results
    · exact results

/-- A completion that hands on nothing leaves the channels and the queue. -/
theorem completed_of_nothing {s : State} (share : s.newEngine.shortfall.share = 0) (h : ¬s.commits) :
    s.completed.outputs = s.outputs ∧ s.completed.demand = s.demand := by
  cases owned : committedOwner s.store.station s.config.capacity s.share with
  | some owner => exact absurd (commits_of_owner owned) h
  | none =>
    rw [completed_of_noOwner owned, if_neg (by omega)]
    exact ⟨withResults_outputs s, withResults_demand s⟩

/-! ### The held attempt (R12, R168) -/

/-- What a completion leaves: its parts, and the line and the ask record as the held attempt leaves them. -/
theorem completeShare_frame {s : State} (flight : s.share.flight.isSome = true) : ∃ l a,
    completeShare s = { s.completed with line := l, share := { s.newEngine with ask := a } } := by
  obtain ⟨l, a, attempt⟩ := tryHeldAttempt_frame s.completed
  obtain ⟨n, d, chs, f, frame⟩ := completed_frame s
  exact ⟨l, a, by rw [completeShare_eq flight, attempt, frame]⟩

/-- Without a held expiry that may begin an attempt, a completion leaves the line interface (R10, R19, R84). -/
theorem completeShare_line {s : State} (flight : s.share.flight.isSome = true)
    (h : s.line.deferralExpired = false ∨ (s.member.state = .joining ∧ s.line.awaitsExpiry = true)) :
    (completeShare s).line = s.line := by
  obtain ⟨n, d, chs, f, frame⟩ := completed_frame s
  rw [completeShare_eq flight]
  have kept : tryHeldAttempt s.completed = s.completed := by
    rcases h with unexpired | ⟨joining, awaits⟩
    · unfold tryHeldAttempt
      split
      · rfl
      · exact tryAttempt_waits (.inl (by rw [frame]; exact unexpired))
    · exact tryHeldAttempt_of_awaitsExpiry (by rw [frame]; exact joining) (by rw [frame]; exact awaits)
  rw [kept, frame]

end Sys2Proof.Machine

section
open Sys2Proof Sys2Proof.Machine

/-- Settles O26: the results by `shedWalk_shedList`, `sum_shedList` and `ownGranted_iff`; the flags, the commit and the
shed target by the lemmas on `State.completed`; the line by the held attempt. -/
theorem completionReplacesTheResults : Obligations.CompletionReplacesTheResults := by
  intro s flight
  have line := completeShare_line flight
  have sends := fun expired idle state unsent attempts transmitter came =>
    completeShare_sends (s := s) flight expired idle ((frameDue_iff s).mpr ⟨state, unsent, attempts⟩) transmitter came
  have short : s.newEngine.shortfall.mark = true ↔ s.config.capacity < countedTotal s.share.snapshot :=
    decide_eq_true_iff
  have shed : s.newEngine.shortfall.mark = true → shedOf s.store.station s.share.snapshot s.config.capacity
      = shedWalk (shedList s.store.station s.share.snapshot) (shortfallAmount s.share.snapshot s.config.capacity) :=
    fun mark => if_pos (short.mp mark)
  have noShed : s.newEngine.shortfall.mark = false →
      shedOf s.store.station s.share.snapshot s.config.capacity = (0, 0) :=
    fun mark => if_neg fun lt => by simp [short.mpr lt] at mark
  obtain ⟨l, a, frame⟩ := completeShare_frame flight
  obtain ⟨n, d, chs, f, parts⟩ := completed_frame s
  refine ⟨completeShare s, rfl, ?_⟩
  rw [frame] at line sends ⊢
  refine ⟨rfl, rfl, rfl, rfl, rfl, rfl, rfl, rfl, rfl, rfl, findsHold_iff _ _, short, ?unshed, ?target, ?ungranted,
    ?shares, ?granted, ?grant, viewAgreement_iff _ _, ?hold, ?shortfall, ?port, flagSet_shed_completed, ?nothing,
    flagSet_result_completed, ?others, ?_, ?_, ?_, ?_, ?_, ?_, ?_, line, sends⟩
  case unshed =>
    intro mark
    have none := noShed mark
    exact ⟨congrArg Prod.fst none, by simp [State.newEngine, completeEngine, findsShortfall, none]⟩
  case target =>
    intro share
    have none : ¬0 < (shedOf s.store.station s.share.snapshot s.config.capacity).1 :=
      Nat.not_lt.mpr (Nat.le_zero.mpr share)
    simp only [State.newEngine, completeEngine, roundResultOf, shedTargetOf]
    cases s.share.snapshot.own with
    | none => rfl
    | some o => exact if_neg none
  case ungranted =>
    intro mark
    rw [← Bool.not_eq_true]
    intro granted
    obtain ⟨fits, -⟩ := (ownGranted_iff _ _ _).mp granted
    exact absurd (short.mp mark) (Nat.not_lt.mpr fits)
  case shares =>
    intro mark
    have left : (shedOf s.store.station s.share.snapshot s.config.capacity).2
        = shortfallAmount s.share.snapshot s.config.capacity
          - (((Sixteen.toList s.share.snapshot.rows).map shedSurplus).sum + ownSurplus s.share.snapshot.own) := by
      rw [shed mark, shedWalk_remaining, sum_shedList]
    refine ⟨(congrArg Prod.fst (shed mark)).trans (shedWalk_shedList _ _ _), decide_eq_true_iff.trans ?_⟩
    rw [left]
    exact Nat.sub_pos_iff_lt
  case granted =>
    refine (ownGranted_iff _ _ _).trans (and_congr ?_ Iff.rfl)
    rw [← Bool.not_eq_true, short, Nat.not_lt]
  case grant =>
    intro o b own ask
    have carried : ownAsk s.share.snapshot.own = some b := (ownAsk_eq_some _ _).mpr ⟨o, own, ask⟩
    simp [State.newEngine, completeEngine, roundResultOf, carried]
  case hold =>
    have flags := flagSet_completed (e := .hold) (by decide) (by decide) s
    exact (Bool.eq_iff_iff.mp flags).trans (by simp)
  case shortfall =>
    have flags := flagSet_completed (e := .shortfall) (by decide) (by decide) s
    exact (Bool.eq_iff_iff.mp flags).trans (by simp)
  case port => rw [parts]
  case nothing => exact fun share notCommitted => completed_of_nothing share notCommitted
  case others =>
    intro e he
    have flags : flagSet e s.completed = flagSet e s := by
      rcases he with rfl | rfl | rfl | rfl | rfl <;> simp [flagSet_completed]
    exact flags
  all_goals rw [parts]

end
end

section
/-! PROOFS. A round close: its parts, the flags they can set, and what they do to the queue and the station state. -/

namespace Sys2Proof.Machine

/-! ### Which flags an operation can set -/

/-- No flag changes but those of some events. -/
def KeepsFlagsBut (es : List Event) (s t : State) : Prop := ∀ e, e ∉ es → flagSet e t = flagSet e s

/-- The events of the membership controller and of the demand queue under it. -/
def memberEvents : List Event := [.result, .shed, .membership]

section Flags
variable {es : List Event} {s t u : State}

theorem KeepsFlagsBut.rfl : KeepsFlagsBut es s s := fun _ _ => Eq.refl _

theorem KeepsFlagsBut.trans (h : KeepsFlagsBut es s t) (h' : KeepsFlagsBut es t u) : KeepsFlagsBut es s u :=
  fun e he => (h' e he).trans (h e he)

theorem KeepsFlagsBut.mono {fs : List Event} (sub : es ⊆ fs) (h : KeepsFlagsBut es s t) : KeepsFlagsBut fs s t :=
  fun e he => h e fun mem => he (sub mem)

theorem KeepsFlagsBut.of_flags (h : t.port.flags = s.port.flags) : KeepsFlagsBut es s t := fun e _ => flagSet_congr e h

theorem KeepsFlagsBut.raise {a : Event} (ha : a ∈ es) (h : KeepsFlagsBut es s t) : KeepsFlagsBut es s (raise a t) := by
  intro e he
  have other : e ≠ a := fun same => he (same ▸ ha)
  simp [h e he, other]

end Flags

/-- Entry to MEMBER sets MEMBERSHIP, and RESULT where its re-check grants a head (R86, R99, R106). -/
theorem flagSet_enterMember {e : Event} (he : e ≠ .result) (s : State) :
    flagSet e (enterMember s) = (flagSet e s || decide (e = .membership)) :=
  (flagSet_headRecheck he _).trans (flagSet_raise _ _ _)

theorem enterMember_keepsFlags (s : State) : KeepsFlagsBut memberEvents s (enterMember s) := by
  intro e he
  obtain ⟨result, -, membership⟩ : e ≠ .result ∧ e ≠ .shed ∧ e ≠ .membership := by simpa [memberEvents] using he
  simp [flagSet_enterMember result, membership]

/-- Entry to ISOLATED sets MEMBERSHIP, and SHED where the committed total is above the floor (R89, R99, R123). -/
theorem flagSet_enterIsolated (e : Event) (s : State) : flagSet e (enterIsolated s) = (flagSet e s
    || decide (e = .membership)
    || (decide (s.config.floor < committedTotal s.outputs.channels) && decide (e = .shed))) := by
  have entered : flagSet e (onChannels (cutTo s.config.floor) (emptyAsk (enter .isolated s)))
      = (flagSet e s || decide (e = .membership)) := flagSet_raise _ _ _
  rw [enterIsolated_eq, flagSet_raiseIf, entered]

theorem enterIsolated_keepsFlags (s : State) : KeepsFlagsBut memberEvents s (enterIsolated s) := by
  intro e he
  obtain ⟨-, shed, membership⟩ : e ≠ .result ∧ e ≠ .shed ∧ e ≠ .membership := by simpa [memberEvents] using he
  simp [flagSet_enterIsolated, shed, membership]

theorem takeListenExpiry_keepsFlags (s : State) : KeepsFlagsBut memberEvents s (takeListenExpiry s) := by
  unfold takeListenExpiry
  split
  · exact KeepsFlagsBut.raise (by simp [memberEvents]) (.of_flags rfl)
  · exact .rfl

theorem takeJoinExpiry_keepsFlags (s : State) : KeepsFlagsBut memberEvents s (takeJoinExpiry s) := by
  unfold takeJoinExpiry
  split
  · exact enterMember_keepsFlags s
  · exact .rfl

theorem takeIsolationExpiry_keepsFlags (s : State) : KeepsFlagsBut memberEvents s (takeIsolationExpiry s) := by
  unfold takeIsolationExpiry
  split
  · exact enterIsolated_keepsFlags s
  · exact .rfl

theorem takeMemberExpiries_keepsFlags (s : State) : KeepsFlagsBut memberEvents s (takeMemberExpiries s) :=
  (takeIsolationExpiry_keepsFlags s).trans ((takeJoinExpiry_keepsFlags _).trans (takeListenExpiry_keepsFlags _))

theorem membershipCheck_keepsFlags (view : Sixteen Row) (s : State) :
    KeepsFlagsBut memberEvents s (membershipCheck view s) := by
  unfold membershipCheck
  cases s.member.state with
  | isolated =>
    dsimp only
    split
    · exact enterMember_keepsFlags s
    · exact .rfl
  | start | listen | joining | member | parking | parked | fault => exact .of_flags rfl

theorem expireHead_keepsFlags (s : State) : KeepsFlagsBut [.result] s (expireHead s) := by
  unfold expireHead
  split
  · exact .rfl
  · split
    · exact KeepsFlagsBut.raise (by simp) (.of_flags rfl)
    · exact .rfl

theorem ageHead_keepsFlags (s : State) : KeepsFlagsBut [.result] s (ageHead s) := by
  obtain ⟨d, h⟩ := ageHead_frame s
  rw [h]
  exact .of_flags rfl

/-- An expiry is taken, or left to its own row (log 3). -/
theorem unlessNext_cases (row : Instr) (take : State → State) (s : State) :
    unlessNext row take s = s ∨ unlessNext row take s = take s := by
  unfold unlessNext
  split
  · exact .inl rfl
  · exact .inr rfl

theorem unlessNext_keepsFlags {es : List Event} (row : Instr) {take : State → State}
    (h : ∀ s, KeepsFlagsBut es s (take s)) (s : State) : KeepsFlagsBut es s (unlessNext row take s) := by
  rcases unlessNext_cases row take s with same | taken
  · rw [same]
    exact .rfl
  · rw [taken]
    exact h s

theorem takeMemberExpiriesNotNext_keepsFlags (s : State) : KeepsFlagsBut memberEvents s (takeMemberExpiriesNotNext s) :=
  (unlessNext_keepsFlags _ takeIsolationExpiry_keepsFlags s).trans
    ((unlessNext_keepsFlags _ takeJoinExpiry_keepsFlags _).trans (unlessNext_keepsFlags _ takeListenExpiry_keepsFlags _))

/-! ### A round close, part by part (R7, R8, R32 to R35, R43, R108) -/

/-- The demand queue at a close: the head ages, and expires at its limit (R108). -/
def demandClose (s : State) : State := expireHead (ageHead s)

/-- The membership controller at a close: the counts move, and the expiries they reach are taken (R83, R85, R88). -/
def memberClose (view : Sixteen Row) (s : State) : State := takeMemberExpiries (membershipCheck view s)

theorem demandClose_frame (s : State) : ∃ d f, demandClose s = s.withDemand d s.outputs.channels f := by
  obtain ⟨d, aged⟩ := ageHead_frame s
  obtain ⟨d', f, expired⟩ := expireHead_frame (ageHead s)
  exact ⟨d', f, by unfold demandClose; rw [expired, aged]⟩

theorem demandClose_keepsFlags (s : State) : KeepsFlagsBut [.result] s (demandClose s) :=
  (ageHead_keepsFlags s).trans (expireHead_keepsFlags _)

theorem memberClose_frame (view : Sixteen Row) (s : State) :
    ∃ m a d chs f, memberClose view s = s.withMember m a d chs f := by
  obtain ⟨m, d, chs, f, checked⟩ := membershipCheck_frame view s
  obtain ⟨m', a, d', chs', f', taken⟩ := takeMemberExpiries_frame (membershipCheck view s)
  exact ⟨m', a, d', chs', f', by unfold memberClose; rw [taken, checked]⟩

theorem memberClose_keepsFlags (view : Sixteen Row) (s : State) : KeepsFlagsBut memberEvents s (memberClose view s) :=
  (membershipCheck_keepsFlags view s).trans (takeMemberExpiries_keepsFlags _)

theorem takeLeftExpiries_frame (s : State) : ∃ m a d chs f, takeLeftExpiries s = s.withMember m a d chs f := by
  obtain ⟨d, f, expired⟩ := expireHead_frame s
  obtain ⟨m, a, d', chs, f', taken⟩ := takeMemberExpiries_frame (expireHead s)
  exact ⟨m, a, d', chs, f', by unfold takeLeftExpiries; rw [taken, expired]⟩

theorem takeLeftExpiries_keepsFlags (s : State) : KeepsFlagsBut memberEvents s (takeLeftExpiries s) :=
  ((expireHead_keepsFlags s).mono (by simp [memberEvents])).trans (takeMemberExpiries_keepsFlags _)

/-- The controller and the queue at a close change what an entry, a grant or a cut can change, in every order. -/
theorem closeCounts_frame (order : CloseOrder) (view : Sixteen Row) (s : State) :
    ∃ m a d chs f, closeCounts order view s = s.withMember m a d chs f := by
  cases order with
  | ageFirst =>
    obtain ⟨d, f, demand⟩ := demandClose_frame s
    obtain ⟨m, a, d', chs, f', member⟩ := memberClose_frame view (demandClose s)
    have parts : closeCounts .ageFirst view s = memberClose view (demandClose s) := rfl
    exact ⟨m, a, d', chs, f', by rw [parts, member, demand]⟩
  | stateFirst =>
    obtain ⟨m, a, d, chs, f, member⟩ := memberClose_frame view s
    obtain ⟨d', f', demand⟩ := demandClose_frame (memberClose view s)
    have parts : closeCounts .stateFirst view s = demandClose (memberClose view s) := rfl
    exact ⟨m, a, d', chs, f', by rw [parts, demand, member]⟩
  | apart =>
    have expired : ∃ d f, unlessNext .askLimitExpiry expireHead (ageHead s) = s.withDemand d s.outputs.channels f := by
      obtain ⟨d, aged⟩ := ageHead_frame s
      rcases unlessNext_cases .askLimitExpiry expireHead (ageHead s) with left | taken
      · exact ⟨d, s.port.flags, by rw [left, aged]⟩
      · rw [taken]
        exact demandClose_frame s
    obtain ⟨d, f, hd⟩ := expired
    obtain ⟨m, d', chs, f', checked⟩ := membershipCheck_frame view (unlessNext .askLimitExpiry expireHead (ageHead s))
    obtain ⟨m', a, d'', chs', f'', taken⟩ := takeMemberExpiriesNotNext_frame
      (membershipCheck view (unlessNext .askLimitExpiry expireHead (ageHead s)))
    exact ⟨m', a, d'', chs', f'', by unfold closeCounts; dsimp only; rw [taken, checked, hd]⟩

theorem closeCounts_keepsFlags (order : CloseOrder) (view : Sixteen Row) (s : State) :
    KeepsFlagsBut memberEvents s (closeCounts order view s) := by
  cases order with
  | ageFirst => exact ((demandClose_keepsFlags s).mono (by simp [memberEvents])).trans (memberClose_keepsFlags view _)
  | stateFirst => exact (memberClose_keepsFlags view s).trans ((demandClose_keepsFlags _).mono (by simp [memberEvents]))
  | apart =>
    have expired : KeepsFlagsBut memberEvents s (unlessNext .askLimitExpiry expireHead (ageHead s)) :=
      ((ageHead_keepsFlags s).trans (unlessNext_keepsFlags _ expireHead_keepsFlags _)).mono (by simp [memberEvents])
    exact expired.trans ((membershipCheck_keepsFlags view _).trans (takeMemberExpiriesNotNext_keepsFlags _))

/-- Aging leaves the received mark (R34). -/
theorem Row.age_received (lease retire : Nat) (r : Row) : (r.age lease retire).received = r.received := by
  unfold Row.age
  split
  · rfl
  · split
    · rfl
    · rfl
    · split
      · rfl
      · split <;> rfl
    · split <;> rfl

/-- PEER is set where a row of the view has another state than before the close (R39). -/
theorem agingShows_iff (s : State) : agingShows s.config.lease s.config.retire s.peers = true ↔
    ∃ n, (Sixteen.get (roundView s) n).state ≠ (Sixteen.get s.peers n).state := by
  simp [agingShows, roundView, List.any_eq_true, Sixteen.mem_toList]

/-- The peer table and the share engine at a close (R32 to R35, R43). -/
theorem closeTable_eq (s : State) : closeTable s = { s with
    peers := Sixteen.map Row.unmark (roundView s)
    share := startComputation (roundView s) s.share
    port := { s.port with
      flags := if agingShows s.config.lease s.config.retire s.peers = true then s.port.flags ||| Event.peer.mask
        else s.port.flags } } := by
  unfold closeTable
  dsimp only
  cases agingShows s.config.lease s.config.retire s.peers <;> rfl

theorem flagSet_closeTable (e : Event) (s : State) : flagSet e (closeTable s)
    = (flagSet e s || (agingShows s.config.lease s.config.retire s.peers && decide (e = .peer))) := flagSet_raiseIf _ _ _ _

/-- A close on an idle line takes what it finds left, then closes the table, then moves the counts. -/
theorem closeRound_eq (order : CloseOrder) {s : State} (idle : s.line.idle = true) :
    closeRound order s = closeCounts order (roundView s)
      (closeTable (onLine LineInterface.closeRound (takeLeftExpiries s))) := by
  obtain ⟨m, a, d, chs, f, left⟩ := takeLeftExpiries_frame s
  have view : roundView (onLine LineInterface.closeRound (takeLeftExpiries s)) = roundView s := by rw [left]; rfl
  unfold closeRound
  rw [if_pos idle]
  dsimp only
  rw [view]

/-- The flags that no part of a close but the table can set (R39). -/
theorem flagSet_closeRound {e : Event} (he : e ∉ memberEvents) (order : CloseOrder) {s : State}
    (idle : s.line.idle = true) :
    flagSet e (closeRound order s)
      = (flagSet e s || (agingShows s.config.lease s.config.retire s.peers && decide (e = .peer))) := by
  obtain ⟨m, a, d, chs, f, left⟩ := takeLeftExpiries_frame s
  have kept : flagSet e (onLine LineInterface.closeRound (takeLeftExpiries s)) = flagSet e s :=
    takeLeftExpiries_keepsFlags s e he
  rw [closeRound_eq order idle, closeCounts_keepsFlags order _ _ e he, flagSet_closeTable, kept, left]
  rfl

end Sys2Proof.Machine

end

section
/-! PROOFS. A round close that finds no expiry left: what it does to the queue, the channels and the station state. -/

namespace Sys2Proof.Machine

/-! ### Nothing left to take (log 3) -/

theorem noExpiryWaits_requests {s : State} (h : noExpiryWaits s = true) :
    ∀ r ∈ s.demand.requests, s.config.askLimit = 0 ∨ r.age < s.config.askLimit := by
  unfold noExpiryWaits at h
  obtain ⟨-, ages⟩ := Bool.and_eq_true_iff.mp h
  simpa using ages

theorem noExpiryWaits_counts {s : State} (h : noExpiryWaits s = true) :
    (s.member.state = .listen → s.member.listenCount ≤ s.config.lease)
      ∧ (s.member.state = .joining → s.member.joinCount < 2)
      ∧ (s.member.state = .member → s.member.isolationCount < s.config.isolation) := by
  unfold noExpiryWaits at h
  obtain ⟨counts, -⟩ := Bool.and_eq_true_iff.mp h
  cases state : s.member.state <;> simp [state] at counts <;> simp [counts]

/-- The head expires where its age has reached the limit (R108). -/
theorem expireHead_cons {s : State} {r : Request} {rest : List Request} (queue : s.demand.requests = r :: rest) :
    expireHead s = if 0 < s.config.askLimit ∧ s.config.askLimit ≤ r.age
      then writeResult r.channel r.tag .expired (setRequests rest s) else s := by
  unfold expireHead
  rw [queue]

theorem expireHead_of_noRequests {s : State} (queue : s.demand.requests = []) : expireHead s = s := by
  unfold expireHead
  rw [queue]

/-- A head that has not reached the limit stays (R108). -/
theorem expireHead_of_below {s : State}
    (h : ∀ r ∈ s.demand.requests, s.config.askLimit = 0 ∨ r.age < s.config.askLimit) :
    expireHead s = s := by
  cases queue : s.demand.requests with
  | nil => exact expireHead_of_noRequests queue
  | cons r rest =>
    rw [expireHead_cons queue, if_neg]
    have := h r (by simp [queue])
    omega

theorem takeLeftExpiries_of_noExpiry {s : State} (h : noExpiryWaits s = true) : takeLeftExpiries s = s := by
  obtain ⟨listen, join, isolation⟩ := noExpiryWaits_counts h
  have noIsolation : takeIsolationExpiry s = s := if_neg fun ⟨state, count⟩ => by have := isolation state; omega
  have noJoin : takeJoinExpiry s = s := if_neg fun ⟨state, count⟩ => by have := join state; omega
  have noListen : takeListenExpiry s = s := if_neg fun ⟨state, count⟩ => by have := listen state; omega
  rw [takeLeftExpiries, expireHead_of_below (noExpiryWaits_requests h), takeMemberExpiries, noIsolation, noJoin, noListen]

/-! ### The queue and RESULT (R106, R108, R113) -/

/-- The queue has not grown, and RESULT is set exactly where it has become shorter. -/
def ResultTracks (s t : State) : Prop :=
  t.demand.requests.length ≤ s.demand.requests.length
    ∧ flagSet .result t = (flagSet .result s || decide (t.demand.requests.length < s.demand.requests.length))

theorem ResultTracks.of_same {s t : State} (queue : t.demand.requests.length = s.demand.requests.length)
    (flag : flagSet .result t = flagSet .result s) : ResultTracks s t :=
  ⟨Nat.le_of_eq queue, by simp [queue, flag]⟩

theorem ResultTracks.trans {s t u : State} (h : ResultTracks s t) (h' : ResultTracks t u) : ResultTracks s u := by
  obtain ⟨le, flag⟩ := h
  obtain ⟨le', flag'⟩ := h'
  refine ⟨Nat.le_trans le' le, ?_⟩
  rw [flag', flag, Bool.or_assoc, ← Bool.decide_or]
  congr 2
  exact propext ⟨fun lt => by omega, fun lt => by omega⟩

theorem headRecheck_resultTracks (s : State) : ResultTracks s (headRecheck s) := by
  obtain ⟨granted, kept, queue, parts, -, -⟩ := headRecheck_grants s
  rw [parts]
  cases granted with
  | nil => exact .of_same (by simp [queue]) rfl
  | cons r rest =>
    have shorter : kept.length < s.demand.requests.length := by
      rw [queue]
      simp
    refine ⟨Nat.le_of_lt shorter, ?_⟩
    simp [flagSet, Event.getLsbD_mask, shorter]

theorem enterMember_resultTracks (s : State) : ResultTracks s (enterMember s) := by
  have entered : ResultTracks s (enter .member { s with member := { s.member with isolationCount := 0 } }) :=
    .of_same rfl ((flagSet_raise _ _ _).trans (by simp [flagSet]))
  exact entered.trans (headRecheck_resultTracks _)

theorem ageHead_resultTracks (s : State) : ResultTracks s (ageHead s) := by
  unfold ageHead
  split
  · cases queue : s.demand.requests with
    | nil => exact .of_same rfl rfl
    | cons r rest => exact .of_same (by simp [queue]) rfl
  · exact .of_same rfl rfl

theorem expireHead_resultTracks (s : State) : ResultTracks s (expireHead s) := by
  cases queue : s.demand.requests with
  | nil =>
    rw [expireHead_of_noRequests queue]
    exact .of_same rfl rfl
  | cons r rest =>
    rw [expireHead_cons queue]
    split
    · refine ⟨by simp [queue], ?_⟩
      simp [writeResult, queue, flagSet, Event.getLsbD_mask]
    · exact .of_same rfl rfl

theorem demandClose_resultTracks (s : State) : ResultTracks s (demandClose s) :=
  (ageHead_resultTracks s).trans (expireHead_resultTracks _)

/-- Outside MEMBER a head below the limit neither ages nor expires (R108). -/
theorem demandClose_of_not_member {s : State} (state : s.member.state ≠ .member)
    (h : ∀ r ∈ s.demand.requests, s.config.askLimit = 0 ∨ r.age < s.config.askLimit) : demandClose s = s := by
  have unaged : ageHead s = s := if_neg state
  rw [demandClose, unaged, expireHead_of_below h]

/-! ### The station state (R83 to R92) -/

theorem takeListenExpiry_of_state {s : State} (h : s.member.state ≠ .listen) : takeListenExpiry s = s :=
  if_neg fun ⟨state, _⟩ => h state

theorem takeJoinExpiry_of_state {s : State} (h : s.member.state ≠ .joining) : takeJoinExpiry s = s :=
  if_neg fun ⟨state, _⟩ => h state

theorem takeIsolationExpiry_of_state {s : State} (h : s.member.state ≠ .member) : takeIsolationExpiry s = s :=
  if_neg fun ⟨state, _⟩ => h state

theorem enterMember_member (s : State) :
    (enterMember s).member = { s.member with state := .member, isolationCount := 0 } := by
  obtain ⟨d, chs, f, h⟩ := enterMember_frame s
  rw [h]

theorem enterIsolated_member (s : State) : (enterIsolated s).member = { s.member with state := .isolated } := by
  obtain ⟨d, chs, f, h⟩ := enterIsolated_frame s
  rw [h]

/-- A station state uses one count, so one expiry at most is taken. -/
theorem takeMemberExpiries_of_listen {s : State} (h : s.member.state = .listen) :
    takeMemberExpiries s = takeListenExpiry s := by
  rw [takeMemberExpiries, takeIsolationExpiry_of_state (by simp [h]), takeJoinExpiry_of_state (by simp [h])]

theorem takeMemberExpiries_of_joining {s : State} (h : s.member.state = .joining) :
    takeMemberExpiries s = takeJoinExpiry s := by
  rw [takeMemberExpiries, takeIsolationExpiry_of_state (by simp [h]), takeListenExpiry_of_state]
  unfold takeJoinExpiry
  split
  · simp [enterMember_member]
  · simp [h]

theorem takeMemberExpiries_of_member {s : State} (h : s.member.state = .member) :
    takeMemberExpiries s = takeIsolationExpiry s := by
  have entered : (takeIsolationExpiry s).member.state = .isolated ∨ (takeIsolationExpiry s).member.state = .member := by
    unfold takeIsolationExpiry
    split
    · simp [enterIsolated_member]
    · simp [h]
  rw [takeMemberExpiries, takeJoinExpiry_of_state, takeListenExpiry_of_state]
  all_goals rcases entered with state | state <;> simp [state]

theorem takeMemberExpiries_of_other {s : State} (listen : s.member.state ≠ .listen) (joining : s.member.state ≠ .joining)
    (member : s.member.state ≠ .member) : takeMemberExpiries s = s := by
  rw [takeMemberExpiries, takeIsolationExpiry_of_state member, takeJoinExpiry_of_state joining,
    takeListenExpiry_of_state listen]

/-- What the membership controller can do at a close: it moves its counts, with an entry to neither MEMBER nor ISOLATED; or
it isolates a MEMBER; or it enters MEMBER from another state. -/
inductive MemberClosed (s : State) : State → Prop
  | stays (m : Membership) (j : Bool) (same : m.state = .member ↔ s.member.state = .member) :
      MemberClosed s (raiseIf j .membership { s with member := m })
  | isolates (m : Membership) (was : s.member.state = .member) (counted : m.state = .member) :
      MemberClosed s (enterIsolated { s with member := m })
  | enters (m : Membership) (was : s.member.state ≠ .member) : MemberClosed s (enterMember { s with member := m })

/-- Moved counts before an expiry are part of the close. -/
theorem MemberClosed.of_counts {s t : State} {m : Membership} (same : m.state = s.member.state)
    (h : MemberClosed { s with member := m } t) : MemberClosed s t := by
  cases h with
  | stays m' j same' => exact .stays (s := s) m' j (same'.trans (by rw [same]))
  | isolates m' was counted => exact .isolates (s := s) m' (same ▸ was) counted
  | enters m' was => exact .enters (s := s) m' (same ▸ was)

theorem takeMemberExpiries_closed (s : State) : MemberClosed s (takeMemberExpiries s) := by
  cases state : s.member.state with
  | listen =>
    rw [takeMemberExpiries_of_listen state, takeListenExpiry]
    split
    · exact .stays { s.member with state := .joining, joinCount := 0 } true (by simp [state])
    · exact .stays s.member false Iff.rfl
  | joining =>
    rw [takeMemberExpiries_of_joining state, takeJoinExpiry]
    split
    · exact .enters s.member (by simp [state])
    · exact .stays s.member false Iff.rfl
  | member =>
    rw [takeMemberExpiries_of_member state, takeIsolationExpiry]
    split
    · exact .isolates s.member state state
    · exact .stays s.member false Iff.rfl
  | start | isolated | parking | parked | fault =>
    rw [takeMemberExpiries_of_other (by simp [state]) (by simp [state]) (by simp [state])]
    exact .stays s.member false Iff.rfl

theorem memberClose_closed (view : Sixteen Row) {s : State} (isolation : 0 < s.config.isolation) :
    MemberClosed s (memberClose view s) := by
  unfold memberClose membershipCheck
  cases state : s.member.state with
  | listen | joining | member =>
    dsimp only
    exact (takeMemberExpiries_closed _).of_counts (by simp [state])
  | isolated =>
    dsimp only
    split
    · have settled : takeMemberExpiries (enterMember s) = enterMember s := by
        obtain ⟨d, chs, f, frame⟩ := enterMember_frame s
        rw [takeMemberExpiries_of_member (by rw [enterMember_member]), takeIsolationExpiry, if_neg]
        rintro ⟨-, count⟩
        rw [frame] at count
        exact absurd isolation (Nat.not_lt.mpr count)
      rw [settled]
      exact .enters s.member (by simp [state])
    · exact takeMemberExpiries_closed s
  | start | parking | parked | fault => exact takeMemberExpiries_closed s

section Closed
variable {s t : State}

theorem MemberClosed.resultTracks (h : MemberClosed s t) : ResultTracks s t := by
  cases h with
  | stays m j same =>
    refine .of_same (by simp) ?_
    rw [flagSet_raiseIf]
    simp [flagSet]
  | isolates m was counted =>
    refine .of_same (by simp [enterIsolated_eq]) ?_
    rw [flagSet_enterIsolated]
    simp [flagSet]
  | enters m was => exact (ResultTracks.of_same (t := { s with member := m }) rfl rfl).trans (enterMember_resultTracks _)

/-- The case of a MEMBER that isolates: its channels are cut to the floor, its ask is emptied, and SHED is set where the
total was above the floor (R75, R89, R123). -/
theorem MemberClosed.isolated (h : MemberClosed s t) (was : s.member.state = .member) (is : t.member.state = .isolated) :
    (∀ c : Chan, t.outputs.channels.get c = afterCut s.config.floor s.outputs.channels c)
      ∧ t.outputs.running = s.outputs.running
      ∧ t.share.ask = s.share.ask.empty
      ∧ flagSet .shed t = (flagSet .shed s || decide (s.config.floor < committedTotal s.outputs.channels)) := by
  cases h with
  | stays m j same =>
    have member := same.mpr was
    simp [member] at is
  | isolates m _ counted =>
    refine ⟨fun c => by simp [enterIsolated_eq, cutTo_get_eq], by simp [enterIsolated_eq], by simp [enterIsolated_eq],
      ?_⟩
    rw [flagSet_enterIsolated]
    simp [flagSet]
  | enters m notMember => exact absurd was notMember

/-- In every other case the ask record and SHED stay. -/
theorem MemberClosed.not_isolated (h : MemberClosed s t) (other : s.member.state ≠ .member ∨ t.member.state ≠ .isolated) :
    t.share.ask = s.share.ask ∧ flagSet .shed t = flagSet .shed s := by
  cases h with
  | stays m j same =>
    refine ⟨by simp, ?_⟩
    rw [flagSet_raiseIf]
    simp [flagSet]
  | isolates m was counted =>
    rcases other with other | other
    · exact absurd was other
    · simp [enterIsolated_member] at other
  | enters m was =>
    obtain ⟨d, chs, f, frame⟩ := enterMember_frame { s with member := m }
    exact ⟨by rw [frame], (flagSet_enterMember (by decide) _).trans (by simp [flagSet])⟩

/-- A close that leads to MEMBER from another state is an entry to MEMBER (R86, R92). -/
theorem MemberClosed.entered (h : MemberClosed s t) (was : s.member.state ≠ .member) (is : t.member.state = .member) :
    ∃ m, t = enterMember { s with member := m } := by
  cases h with
  | stays m j same =>
    rw [raiseIf_member] at is
    exact absurd (same.mp is) was
  | isolates m member counted => exact absurd member was
  | enters m _ => exact ⟨m, rfl⟩

/-- Without an entry to ISOLATED or to MEMBER the channels stay. -/
theorem MemberClosed.outputs (h : MemberClosed s t) (noEntry : s.member.state = .member ∨ t.member.state ≠ .member)
    (other : s.member.state ≠ .member ∨ t.member.state ≠ .isolated) : t.outputs = s.outputs := by
  cases h with
  | stays m j same => simp
  | isolates m was counted =>
    rcases other with other | other
    · exact absurd was other
    · simp [enterIsolated_member] at other
  | enters m was =>
    rcases noEntry with noEntry | noEntry
    · exact absurd noEntry was
    · simp [enterMember_member] at noEntry

end Closed

/-! ### The close as a whole -/

/-- A queue that leaves no expiry makes the order `apart` the order `ageFirst` (log 3). -/
theorem closeCounts_apart {s : State} (view : Sixteen Row) (h : leavesNoExpiry s.pending = true) :
    closeCounts .apart view s = memberClose view (demandClose s) := by
  have taken : ∀ (row : Instr) (take : State → State) (t : State), t.pending = s.pending →
      unlessNext row take t = take t := by
    intro row take t pending
    have none := standsNext_of_leavesNoExpiry row t (pending ▸ h)
    simp [unlessNext, none]
  obtain ⟨d, aged⟩ := ageHead_frame s
  obtain ⟨d', f, demand⟩ := demandClose_frame s
  obtain ⟨m, d1, chs1, f1, checked⟩ := membershipCheck_frame view (demandClose s)
  obtain ⟨m2, a2, d2, chs2, f2, isolation⟩ := takeIsolationExpiry_frame (membershipCheck view (demandClose s))
  obtain ⟨m3, d3, chs3, f3, join⟩ := takeJoinExpiry_frame (takeIsolationExpiry (membershipCheck view (demandClose s)))
  unfold closeCounts takeMemberExpiriesNotNext
  dsimp only
  rw [taken .askLimitExpiry expireHead (ageHead s) (by rw [aged]), show expireHead (ageHead s) = demandClose s from rfl,
    taken .isolationCountExpiry _ _ (by rw [checked, demand]),
    taken .joinCountExpiry _ _ (by rw [isolation, checked, demand]),
    taken .listenCountExpiry _ _ (by rw [join, isolation, checked, demand])]
  rfl

/-- The state between the close of the table and the counts, where no expiry was left. -/
def State.tableClosed (s : State) : State := closeTable (onLine LineInterface.closeRound s)

theorem tableClosed_eq (s : State) : s.tableClosed = { s with
    line := s.line.closeRound
    peers := Sixteen.map Row.unmark (roundView s)
    share := startComputation (roundView s) s.share
    port := { s.port with
      flags := if agingShows s.config.lease s.config.retire s.peers = true then s.port.flags ||| Event.peer.mask
        else s.port.flags } } := closeTable_eq _

theorem flagSet_tableClosed {e : Event} (he : e ≠ .peer) (s : State) : flagSet e s.tableClosed = flagSet e s := by
  refine (flagSet_closeTable e _).trans ?_
  simp [he, flagSet]

theorem tableClosed_resultTracks (s : State) : ResultTracks s s.tableClosed :=
  .of_same (by rw [tableClosed_eq]) (flagSet_tableClosed (by decide) s)

/-- The close of the table, then the queue and the controller, or the controller and the queue. -/
theorem closeRound_quiet {order : CloseOrder} {s : State} (idle : s.line.idle = true) (quiet : noExpiryWaits s = true)
    (leaves : order = .apart → leavesNoExpiry s.pending = true) : closeRound order s =
      if order = .stateFirst then demandClose (memberClose (roundView s) s.tableClosed)
      else memberClose (roundView s) (demandClose s.tableClosed) := by
  rw [closeRound_eq order idle, takeLeftExpiries_of_noExpiry quiet]
  cases order with
  | ageFirst =>
    rw [if_neg (by decide)]
    rfl
  | stateFirst =>
    rw [if_pos rfl]
    rfl
  | apart =>
    rw [if_neg (by decide)]
    have pending : s.tableClosed.pending = s.pending := by rw [tableClosed_eq]
    exact closeCounts_apart (s := s.tableClosed) _ (pending ▸ leaves rfl)

/-- One state comes from another by the head's aging and expiry, or by nothing: the queue, the last results and RESULT. -/
def DemandMoved (s t : State) : Prop :=
  (∃ d f, t = s.withDemand d s.outputs.channels f) ∧ KeepsFlagsBut [.result] s t ∧ ResultTracks s t

theorem DemandMoved.rfl {s : State} : DemandMoved s s :=
  ⟨⟨s.demand, s.port.flags, Eq.refl _⟩, .rfl, .of_same (Eq.refl _) (Eq.refl _)⟩

theorem demandClose_moved (s : State) : DemandMoved s (demandClose s) :=
  ⟨demandClose_frame s, demandClose_keepsFlags s, demandClose_resultTracks s⟩

/-- In every order the queue moves once and the controller closes once. -/
theorem closeRound_parts {order : CloseOrder} {s : State} (idle : s.line.idle = true) (quiet : noExpiryWaits s = true)
    (isolation : 0 < s.config.isolation) (leaves : order = .apart → leavesNoExpiry s.pending = true) :
    ∃ x y, DemandMoved s.tableClosed x ∧ MemberClosed x y ∧ DemandMoved y (closeRound order s) := by
  have positive : 0 < s.tableClosed.config.isolation := by rw [tableClosed_eq]; exact isolation
  rw [closeRound_quiet idle quiet leaves]
  split
  · exact ⟨_, _, .rfl, memberClose_closed _ positive, demandClose_moved _⟩
  · obtain ⟨d, f, frame⟩ := demandClose_frame s.tableClosed
    exact ⟨_, _, demandClose_moved _, memberClose_closed _ (by rw [frame]; exact positive), .rfl⟩

/-- An entry to MEMBER at a close grants the heads that fit, from the state that the close of the table left (R86,
R106). -/
theorem tableClosed_enterMember {s u : State} {m : Membership} (h : u = enterMember { s.tableClosed with member := m }) :
    HeadsGranted { s with
      line := u.line, peers := u.peers, share := u.share, member := u.member
      port := { s.port with
        flags := (if ∃ n, (Sixteen.get u.share.snapshot.rows n).state ≠ (Sixteen.get s.peers n).state
          then s.port.flags ||| Event.peer.mask else s.port.flags) ||| Event.membership.mask } } u := by
  have granted : HeadsGranted (enter .member { s.tableClosed with member := { m with isolationCount := 0 } }) u := by
    rw [h]
    exact headRecheck_grants _
  obtain ⟨d, chs, f, frame⟩ := enterMember_frame { s.tableClosed with member := m }
  have shows : (∃ n, (Sixteen.get u.share.snapshot.rows n).state ≠ (Sixteen.get s.peers n).state)
      ↔ agingShows s.config.lease s.config.retire s.peers = true := by
    rw [agingShows_iff, h, frame, tableClosed_eq]
    rfl
  rw [if_congr shows rfl rfl]
  have start : enter .member { s.tableClosed with member := { m with isolationCount := 0 } } = { s with
      line := u.line, peers := u.peers, share := u.share, member := u.member
      port := { s.port with
        flags := (if agingShows s.config.lease s.config.retire s.peers = true
          then s.port.flags ||| Event.peer.mask else s.port.flags) ||| Event.membership.mask } } := by
    rw [h, frame, tableClosed_eq]
    rfl
  rw [start] at granted
  exact granted

/-- In MEMBER the head ages and expires at its limit (R108). -/
theorem demandClose_of_member {s : State} {limit : Nat} {r : Request} {rest : List Request}
    (state : s.member.state = .member) (inForce : s.config.askLimit = limit) (queue : s.demand.requests = r :: rest) :
    demandClose s = if limit = 0 ∨ min (r.age + 1) 255 < limit then
        setRequests ({ r with age := min (r.age + 1) 255 } :: rest) s
      else writeResult r.channel r.tag .expired (setRequests rest s) := by
  subst inForce
  have aged : ageHead s = setRequests ({ r with age := min (r.age + 1) 255 } :: rest) s := by
    unfold ageHead
    rw [if_pos state, queue]
  rw [demandClose, aged]
  have expired := expireHead_cons (s := setRequests ({ r with age := min (r.age + 1) 255 } :: rest) s) rfl
  by_cases below : s.config.askLimit = 0 ∨ min (r.age + 1) 255 < s.config.askLimit
  · have kept : ¬(0 < s.config.askLimit ∧ s.config.askLimit ≤ min (r.age + 1) 255) := by omega
    exact expired.trans ((if_neg kept).trans (if_pos below).symm)
  · have reached : 0 < s.config.askLimit ∧ s.config.askLimit ≤ min (r.age + 1) 255 := by omega
    exact expired.trans ((if_pos reached).trans (if_neg below).symm)

theorem demandClose_of_noRequests {s : State} (queue : s.demand.requests = []) : demandClose s = s := by
  have aged : ageHead s = s := by
    unfold ageHead
    rw [queue]
    simp
  rw [demandClose, aged, expireHead_of_noRequests queue]

/-- Where a close leads to MEMBER from another state, the controller entered MEMBER, and the head aged and expired only
where the state was taken first. -/
theorem closeRound_enters {order : CloseOrder} {s : State} (idle : s.line.idle = true) (quiet : noExpiryWaits s = true)
    (isolation : 0 < s.config.isolation) (leaves : order = .apart → leavesNoExpiry s.pending = true)
    (was : s.member.state ≠ .member) (is : (closeRound order s).member.state = .member) :
    ∃ m u, u = enterMember { s.tableClosed with member := m }
      ∧ closeRound order s = if order = .stateFirst then demandClose u else u := by
  have same : s.tableClosed.member = s.member ∧ s.tableClosed.demand = s.demand ∧ s.tableClosed.config = s.config := by
    rw [tableClosed_eq]
    exact ⟨rfl, rfl, rfl⟩
  obtain ⟨member, demand, config⟩ := same
  have still : demandClose s.tableClosed = s.tableClosed :=
    demandClose_of_not_member (member ▸ was) (demand ▸ config ▸ noExpiryWaits_requests quiet)
  have closed := memberClose_closed (roundView s) (s := s.tableClosed) (config ▸ isolation)
  have parts := closeRound_quiet idle quiet leaves
  rw [still] at parts
  obtain ⟨d, f, moved⟩ := demandClose_frame (memberClose (roundView s) s.tableClosed)
  have entered : (memberClose (roundView s) s.tableClosed).member.state = .member := by
    rw [parts] at is
    split at is
    · rw [moved] at is
      exact is
    · exact is
  obtain ⟨m, enters⟩ := closed.entered (member ▸ was) entered
  exact ⟨m, _, enters, parts⟩

end Sys2Proof.Machine

section
open Sys2Proof Sys2Proof.Machine

/-- Settles O17: the first half by the frames of a close's parts, the second by what the queue and the membership
controller can each do there. -/
theorem roundCloseOpensTheNextRound : Obligations.RoundCloseOpensTheNextRound := by
  refine ⟨?_, ?_⟩
  · intro order s idle
    have shows := Bool.eq_iff_iff.mpr ((agingShows_iff s).trans decide_eq_true_iff.symm)
    have peer := flagSet_closeRound (e := .peer) (by simp [memberEvents]) order idle
    have others := fun e he => flagSet_closeRound (e := e) he order idle
    obtain ⟨m, a, d, chs, f, left⟩ := takeLeftExpiries_frame s
    obtain ⟨m', a', d', chs', f', counts⟩ := closeCounts_frame order (roundView s)
      (closeTable (onLine LineInterface.closeRound (takeLeftExpiries s)))
    have parts := closeRound_eq order idle
    rw [counts, closeTable_eq, left] at parts
    refine ⟨closeRound order s, rfl, ?_⟩
    rw [parts] at peer others ⊢
    refine ⟨rfl, rfl, rfl, ?_, fun n => ?_, rfl, rfl, rfl, rfl, rfl, rfl, rfl, ?_, fun e he => ?_⟩
    · cases own : s.share.own <;> simp [startComputation, own]
    · simp [startComputation, roundView, Row.unmark, Row.age_received]
    · refine peer.trans ?_
      rw [shows]
      simp
      rfl
    · refine (others e ?_).trans ?_
      · rcases he with rfl | rfl | rfl | rfl | rfl <;> simp [memberEvents]
      · rcases he with rfl | rfl | rfl | rfl | rfl <;> simp
  · intro order s idle quiet isolation leaves
    obtain ⟨x, y, ⟨⟨d, f, before⟩, flagsBefore, tracksBefore⟩, closed, ⟨⟨d', f', after⟩, flagsAfter, tracksAfter⟩⟩ :=
      closeRound_parts idle quiet isolation leaves
    have tracks := (tableClosed_resultTracks s).trans (tracksBefore.trans (closed.resultTracks.trans tracksAfter))
    have shedBefore : flagSet .shed x = flagSet .shed s :=
      (flagsBefore .shed (by decide)).trans (flagSet_tableClosed (by decide) s)
    have shedAfter := flagsAfter .shed (by decide)
    obtain ⟨xMember, xOutputs, xAsk, xConfig⟩ : x.member = s.member ∧ x.outputs = s.outputs ∧ x.share.ask = s.share.ask
        ∧ x.config = s.config := by
      rw [before, tableClosed_eq]
      exact ⟨rfl, rfl, rfl, rfl⟩
    obtain ⟨tMember, tOutputs, tShare⟩ : (closeRound order s).member = y.member ∧ (closeRound order s).outputs = y.outputs
        ∧ (closeRound order s).share = y.share := by
      rw [after]
      exact ⟨rfl, rfl, rfl⟩
    obtain ⟨-, result⟩ := tracks
    refine ⟨closeRound order s, rfl, result, ?isolates, ?keeps, ?channels, ?enters⟩
    case isolates =>
      rw [tMember]
      intro was is
      obtain ⟨channels, running, ask, shed⟩ := closed.isolated (xMember ▸ was) is
      rw [xOutputs, xConfig] at channels
      rw [tOutputs, tShare, shedAfter, ask, shed, running, xOutputs, xAsk, xConfig, shedBefore]
      exact ⟨channels, rfl, rfl, rfl⟩
    case keeps =>
      rw [tMember]
      intro other
      obtain ⟨ask, shed⟩ := closed.not_isolated (xMember ▸ other)
      rw [tShare, shedAfter, ask, shed, xAsk, shedBefore]
      exact ⟨rfl, rfl⟩
    case channels =>
      rw [tMember, tOutputs]
      intro noEntry other
      rw [closed.outputs (xMember ▸ noEntry) (xMember ▸ other), xOutputs]
    case enters =>
      intro was is
      obtain ⟨m, u, enters, parts⟩ := closeRound_enters idle quiet isolation leaves was is
      obtain ⟨line, peers, share, member⟩ : (closeRound order s).line = u.line ∧ (closeRound order s).peers = u.peers
          ∧ (closeRound order s).share = u.share ∧ (closeRound order s).member = u.member := by
        obtain ⟨d, f, moved⟩ := demandClose_frame u
        rw [parts]
        split
        · rw [moved]
          exact ⟨rfl, rfl, rfl, rfl⟩
        · exact ⟨rfl, rfl, rfl, rfl⟩
      have state : u.member.state = .member := by rw [enters, enterMember_member]
      have config : u.config = s.config := by
        obtain ⟨d, chs, f, frame⟩ := enterMember_frame { s.tableClosed with member := m }
        rw [enters, frame, tableClosed_eq]
      rw [line, peers, share, member]
      refine ⟨u, tableClosed_enterMember enters, fun other => parts.trans (if_neg other), fun first => ?_⟩
      rw [parts, if_pos first]
      cases queue : u.demand.requests with
      | nil => exact demandClose_of_noRequests queue
      | cons r rest =>
        exact demandClose_of_member state (congrArg Configuration.askLimit config) queue

end
end

section
/-! PROOFS. Peer rows: how a row ages and counts, sums over the table, and a row aged ahead of its round close. -/

namespace Sys2Proof.Machine

/-! ### Sums over four and sixteen like things -/

theorem Four.sum_set {α : Type} (g : α → Nat) (x : Four α) (i : Chan) (a : α) :
    ((x.set i a).toList.map g).sum + g (x.get i) = (x.toList.map g).sum + g a := by
  rcases chan_cases i with rfl | rfl | rfl | rfl <;>
    simp [Four.toList, Four.set, Four.get] <;> omega

/-- A sum over sixteen things is the sum of its four quarters. -/
theorem Sixteen.sum_toList {α : Type} (g : α → Nat) (x : Sixteen α) :
    ((Sixteen.toList x).map g).sum = (Four.toList x |>.map fun q => (q.toList.map g).sum).sum := by
  simp [Sixteen.toList, Four.toList]
  omega

theorem Sixteen.sum_set {α : Type} (g : α → Nat) (x : Sixteen α) (n : Station) (a : α) :
    ((Sixteen.toList (Sixteen.set x n a)).map g).sum + g (Sixteen.get x n) = ((Sixteen.toList x).map g).sum + g a := by
  have outer := Four.sum_set (fun q : Four α => (q.toList.map g).sum) x (quarter n)
    ((Four.get x (quarter n)).set (place n) a)
  have inner := Four.sum_set g (Four.get x (quarter n)) (place n) a
  rw [Sixteen.sum_toList, Sixteen.sum_toList, Sixteen.set, Sixteen.get]
  omega

/-! ### What a row counts (R37, R49) -/

theorem Row.counted_of_present {r : Row} (h : r.state = .live ∨ r.state = .silent) : r.counted = max r.held r.floor := by
  rcases h with h | h <;> simp [Row.counted, h]

theorem Row.counted_of_retired {r : Row} (h : r.state = .retired) : r.counted = r.floor := by simp [Row.counted, h]

theorem Row.counted_of_absent {r : Row} (h : r.state = .absent) : r.counted = 0 := by simp [Row.counted, h]

theorem Row.floorCounted_of_listed {r : Row} (h : r.state ≠ .absent) : r.floorCounted = r.floor := if_neg h

/-! ### How a row ages (R32, R33) -/

/-- A row that has taken its aging only loses its mark (log 4). -/
theorem Row.age_of_agedAhead {r : Row} (lease retire : Nat) (h : r.agedAhead = true) :
    r.age lease retire = { r with agedAhead := false } := by
  simp [Row.age, h]

/-- An ABSENT or RETIRED row, and a LIVE one with a frame in the round, does not age. -/
theorem Row.age_of_settled {r : Row} (lease retire : Nat) (ahead : r.agedAhead = false)
    (h : r.state = .absent ∨ r.state = .retired ∨ (r.state = .live ∧ r.received = true)) : r.age lease retire = r := by
  rcases h with h | h | ⟨h, heard⟩
  · simp [Row.age, ahead, h]
  · simp [Row.age, ahead, h]
  · simp [Row.age, ahead, h, heard]

/-- A LIVE row with no frame in the round misses it, and turns SILENT at L (R32). -/
theorem Row.age_of_missed {r : Row} (lease retire : Nat) (ahead : r.agedAhead = false) (live : r.state = .live)
    (unheard : r.received = false) : r.age lease retire = if lease ≤ r.missed + 1
      then { r with missed := r.missed + 1, state := .silent, silentRounds := 0 }
      else { r with missed := r.missed + 1 } := by
  simp [Row.age, ahead, live, unheard]

/-- A SILENT row counts the round, and turns RETIRED at R (R33). -/
theorem Row.age_of_silent {r : Row} (lease retire : Nat) (ahead : r.agedAhead = false) (silent : r.state = .silent) :
    r.age lease retire = if retire ≤ r.silentRounds + 1
      then { r with silentRounds := r.silentRounds + 1, state := .retired }
      else { r with silentRounds := r.silentRounds + 1 } := by
  simp [Row.age, ahead, silent]

/-- Aging moves the state and the two counts alone. -/
theorem Row.age_frame {r : Row} (lease retire : Nat) (ahead : r.agedAhead = false) :
    ∃ st m k, r.age lease retire = { r with state := st, missed := m, silentRounds := k } := by
  cases state : r.state with
  | absent => exact ⟨_, _, _, Row.age_of_settled lease retire ahead (.inl state)⟩
  | retired => exact ⟨_, _, _, Row.age_of_settled lease retire ahead (.inr (.inl state))⟩
  | live =>
    by_cases heard : r.received = true
    · exact ⟨_, _, _, Row.age_of_settled lease retire ahead (.inr (.inr ⟨state, heard⟩))⟩
    · rw [Row.age_of_missed lease retire ahead state (by simpa using heard)]
      split
      · exact ⟨_, _, _, rfl⟩
      · exact ⟨_, _, _, rfl⟩
  | silent =>
    rw [Row.age_of_silent lease retire ahead state]
    split
    · exact ⟨_, _, _, rfl⟩
    · exact ⟨_, _, _, rfl⟩

/-- The row of the round view that a close takes into the snapshot, whatever it does to the counts (R34, R43). -/
theorem closeRound_snapshot (order : CloseOrder) {s : State} (idle : s.line.idle = true) (n : Station) :
    Sixteen.get (closeRound order s).share.snapshot.rows n
      = (Sixteen.get s.peers n).age s.config.lease s.config.retire := by
  obtain ⟨m, a, d, chs, f, left⟩ := takeLeftExpiries_frame s
  obtain ⟨m', a', d', chs', f', counts⟩ := closeCounts_frame order (roundView s)
    (closeTable (onLine LineInterface.closeRound (takeLeftExpiries s)))
  rw [closeRound_eq order idle, counts, closeTable_eq, left]
  exact Sixteen.get_map _ _ _

theorem agingShows_of_turn {s : State} {n : Station}
    (turns : ((Sixteen.get s.peers n).age s.config.lease s.config.retire).state ≠ (Sixteen.get s.peers n).state) :
    agingShows s.config.lease s.config.retire s.peers = true :=
  (agingShows_iff s).mpr ⟨n, by rw [roundView, Sixteen.get_map]; exact turns⟩

/-- A row that turns SILENT or RETIRED at a close sets PEER (R39). -/
theorem closeRound_shows (order : CloseOrder) {s : State} (idle : s.line.idle = true) {n : Station}
    (turns : ((Sixteen.get s.peers n).age s.config.lease s.config.retire).state ≠ (Sixteen.get s.peers n).state) :
    flagSet .peer (closeRound order s) = true := by
  rw [flagSet_closeRound (by simp [memberEvents]) order idle, agingShows_of_turn turns]
  simp

/-! ### A row aged ahead of its close (log 4) -/

/-- Where a close stands next, behind aging rows alone. -/
theorem closeStandsNext_of_pending {s : State} {rows rest : List Instr} {order : CloseOrder} (idle : s.line.idle = true)
    (pending : s.pending = rows ++ .roundClose order :: rest) (aging : ∀ c ∈ rows, isAgingRow c = true) :
    closeStandsNext s = true := by
  unfold closeStandsNext
  rw [idle, pending, List.dropWhile_append_of_pos aging]
  rfl

/-- A row that takes its aging ahead of the close. -/
def State.ageAhead (s : State) (n : Station) : State :=
  raise .peer (setRow n { (Sixteen.get s.peers n).age s.config.lease s.config.retire with agedAhead := true } s)

theorem takeLeaseExpiry_takes {s : State} {n : Station} (next : closeStandsNext s = true)
    (live : (Sixteen.get s.peers n).state = .live) (unheard : (Sixteen.get s.peers n).received = false)
    (first : (Sixteen.get s.peers n).agedAhead = false) (reached : s.config.lease ≤ (Sixteen.get s.peers n).missed + 1) :
    takeLeaseExpiry n s = s.ageAhead n := if_pos ⟨next, live, unheard, first, reached⟩

theorem takeRetireExpiry_takes {s : State} {n : Station} (next : closeStandsNext s = true)
    (silent : (Sixteen.get s.peers n).state = .silent) (first : (Sixteen.get s.peers n).agedAhead = false)
    (reached : s.config.retire ≤ (Sixteen.get s.peers n).silentRounds + 1) :
    takeRetireExpiry n s = s.ageAhead n := if_pos ⟨next, silent, first, reached⟩

/-- What LEASE_EXPIRY can do: nothing, or age a row ahead that the close would turn into another state. -/
theorem takeLeaseExpiry_cases (n : Station) (s : State) : takeLeaseExpiry n s = s
    ∨ takeLeaseExpiry n s = s.ageAhead n ∧ (Sixteen.get s.peers n).agedAhead = false
      ∧ ((Sixteen.get s.peers n).age s.config.lease s.config.retire).state ≠ (Sixteen.get s.peers n).state := by
  by_cases h : closeStandsNext s = true ∧ (Sixteen.get s.peers n).state = .live
      ∧ (Sixteen.get s.peers n).received = false ∧ (Sixteen.get s.peers n).agedAhead = false
      ∧ s.config.lease ≤ (Sixteen.get s.peers n).missed + 1
  · obtain ⟨next, live, unheard, first, reached⟩ := h
    refine .inr ⟨takeLeaseExpiry_takes next live unheard first reached, first, ?_⟩
    simp [Row.age_of_missed _ _ first live unheard, reached, live]
  · exact .inl (if_neg h)

/-- What RETIRE_EXPIRY can do. -/
theorem takeRetireExpiry_cases (n : Station) (s : State) : takeRetireExpiry n s = s
    ∨ takeRetireExpiry n s = s.ageAhead n ∧ (Sixteen.get s.peers n).agedAhead = false
      ∧ ((Sixteen.get s.peers n).age s.config.lease s.config.retire).state ≠ (Sixteen.get s.peers n).state := by
  by_cases h : closeStandsNext s = true ∧ (Sixteen.get s.peers n).state = .silent
      ∧ (Sixteen.get s.peers n).agedAhead = false ∧ s.config.retire ≤ (Sixteen.get s.peers n).silentRounds + 1
  · obtain ⟨next, silent, first, reached⟩ := h
    refine .inr ⟨takeRetireExpiry_takes next silent first reached, first, ?_⟩
    simp [Row.age_of_silent _ _ first silent, reached, silent]
  · exact .inl (if_neg h)

end Sys2Proof.Machine

section
open Sys2Proof Sys2Proof.Machine

/-- Settles O24: by the row's state, and for the floor total by the sum over the table with that row cleared. -/
theorem countedValueFollowsTheRowState : Obligations.CountedValueFollowsTheRowState := by
  intro r
  refine ⟨Row.counted_of_present, Row.counted_of_retired, Row.counted_of_absent, fun _ _ => rfl, ?_, ?_⟩
  · intro live none
    rw [Row.counted_of_present (.inl live), none, Nat.zero_max]
  · rintro v n rfl listed
    have sum := Sixteen.sum_set Row.floorCounted v.rows n Row.cleared
    rw [Row.floorCounted_of_listed listed, show Row.cleared.floorCounted = 0 from rfl] at sum
    unfold floorTotal
    dsimp only
    omega

/-- Settles O18: the snapshot holds each row as `Row.age` leaves it, in the case of its state. -/
theorem rowsAgeAtARoundClose : Obligations.RowsAgeAtARoundClose := by
  intro order s n idle ahead
  have shows := closeRound_shows order idle (n := n)
  refine ⟨closeRound order s, rfl, ?_⟩
  dsimp only
  rw [closeRound_snapshot order idle]
  obtain ⟨st, m, k, frame⟩ := Row.age_frame s.config.lease s.config.retire ahead
  refine ⟨by rw [frame], Row.age_of_settled _ _ ahead, ?_, ?_⟩
  · intro live unheard
    have aged := Row.age_of_missed s.config.lease s.config.retire ahead live unheard
    by_cases reached : s.config.lease ≤ (Sixteen.get s.peers n).missed + 1
    · rw [if_pos reached] at aged
      rw [aged] at shows ⊢
      exact ⟨rfl, fun below => absurd reached (Nat.not_le.mpr below), fun _ => ⟨rfl, rfl, shows (by simp [live])⟩⟩
    · rw [if_neg reached] at aged
      rw [aged]
      exact ⟨rfl, fun _ => ⟨live, rfl⟩, fun above => absurd above reached⟩
  · intro silent
    have aged := Row.age_of_silent s.config.lease s.config.retire ahead silent
    by_cases reached : s.config.retire ≤ (Sixteen.get s.peers n).silentRounds + 1
    · rw [if_pos reached] at aged
      rw [aged] at shows ⊢
      exact ⟨rfl, rfl, fun below => absurd reached (Nat.not_le.mpr below), fun _ => ⟨rfl, shows (by simp [silent])⟩⟩
    · rw [if_neg reached] at aged
      rw [aged]
      exact ⟨rfl, rfl, fun _ => silent, fun above => absurd above reached⟩

/-- Settles O22: each row finds its close next, and its aging is the row's turn to SILENT or to RETIRED. -/
theorem leaseAndRetireExpiryAgeTheirRow : Obligations.LeaseAndRetireExpiryAgeTheirRow := by
  refine ⟨?_, ?_⟩
  · intro s n rows rest order idle pending aging live unheard first reached
    have next := closeStandsNext_of_pending idle pending aging
    rw [exec_leaseExpiry, execLeaseExpiry, takeLeaseExpiry_takes next live unheard first reached, State.ageAhead,
      Row.age_of_missed _ _ first live unheard, if_pos reached]
    rfl
  · intro s n rows rest order idle pending aging silent first reached
    have next := closeStandsNext_of_pending idle pending aging
    rw [exec_retireExpiry, execRetireExpiry, takeRetireExpiry_takes next silent first reached, State.ageAhead,
      Row.age_of_silent _ _ first silent, if_pos reached]
    rfl

end
end

section
/-! PROOFS. Frame arrivals at the peer table, FORGET, and the emptied table that ends isolation. -/

namespace Sys2Proof.Machine

/-! ### Entry to MEMBER (R86, R92, R106) -/

theorem enterMember_peers (s : State) : (enterMember s).peers = s.peers := by
  obtain ⟨d, chs, f, frame⟩ := enterMember_frame s
  rw [frame]

/-- An entry to MEMBER grants the heads that fit, with the station already MEMBER and MEMBERSHIP set. -/
theorem enterMember_grants (s : State) : HeadsGranted { s with
    member := (enterMember s).member
    port := { s.port with flags := s.port.flags ||| Event.membership.mask } } (enterMember s) := by
  rw [enterMember_member]
  exact headRecheck_grants _

/-! ### The end of a valid reception (R4 to R6) -/

/-- The line interface has judged the reception in progress, and not yet handed its frame on. -/
def State.receptionTaken (s : State) : State :=
  { s with line := { s.line with reception := none, ownEcho := false, idleGap := max s.line.idleGap 3 } }

/-- The frame of a valid reception that is no echo is handed on. -/
theorem exec_receptionEnd_valid {s : State} {r : Reception} {f : Frame} (reception : s.line.reception = some r)
    (closed : s.line.slot = none) (valid : judge r = some f) (heard : s.line.ownEcho = false) :
    exec .receptionEnd s = .next (takeFrame f s.receptionTaken) := by
  simp [exec_receptionEnd, execReceptionEnd, endReception, reception, closed, valid, heard, onLine, receptionEndGap,
    State.receptionTaken]

theorem takeFrame_claim_other {s : State} {n : Station} (q : Byte) (c : ClaimBody) (other : n ≠ s.store.station) :
    takeFrame (.claim n q c) s = claimArrival n q c s := if_neg other

theorem takeFrame_leave_other {s : State} {n : Station} (q : Byte) (code : Half) (other : n ≠ s.store.station) :
    takeFrame (.leave n q code) s = removeRow n s := if_neg other

/-! ### CLAIM arrivals (R25 to R29) -/

theorem claimArrival_peers (n : Station) (q : Byte) (c : ClaimBody) (s : State) : (claimArrival n q c s).peers
    = Sixteen.set s.peers n ((Sixteen.get s.peers n).afterClaim s.config.circuitCode q c) := by
  obtain ⟨m, d, chs, f, frame⟩ := claimArrival_frame n q c s
  rw [frame]

/-- Outside ISOLATED an arrival changes its row and PEER alone. -/
theorem claimArrival_of_not_isolated (n : Station) (q : Byte) (c : ClaimBody) {s : State}
    (h : s.member.state ≠ .isolated) : claimArrival n q c s
      = raiseIf (decide ((Sixteen.get s.peers n).state ≠ .live)) .peer
        (setRow n ((Sixteen.get s.peers n).afterClaim s.config.circuitCode q c) s) := by
  unfold claimArrival
  dsimp only
  rw [raiseIf_member]
  exact if_neg fun confirmed => h confirmed.1

/-- PEER is set exactly by a row that was not LIVE (R39). -/
theorem flagSet_peer_claimArrival (n : Station) (q : Byte) (c : ClaimBody) (s : State) :
    flagSet .peer (claimArrival n q c s) = (flagSet .peer s || decide ((Sixteen.get s.peers n).state ≠ .live)) := by
  have row : flagSet .peer (raiseIf (decide ((Sixteen.get s.peers n).state ≠ .live)) .peer
      (setRow n ((Sixteen.get s.peers n).afterClaim s.config.circuitCode q c) s))
      = (flagSet .peer s || decide ((Sixteen.get s.peers n).state ≠ .live)) := by
    rw [flagSet_raiseIf, decide_eq_true (rfl : Event.peer = .peer), Bool.and_true]
    rfl
  unfold claimArrival
  dsimp only
  split
  · rw [flagSet_enterMember (by decide), row]
    simp
  · exact row

/-! ### Removals (R30, R31, R36, R92) -/

theorem tableEmpty_iff (rows : Sixteen Row) : tableEmpty rows = true ↔ ∀ n, (Sixteen.get rows n).state = .absent := by
  simp [tableEmpty, Sixteen.mem_toList]

theorem tableEmpty_eq_false_iff (rows : Sixteen Row) :
    tableEmpty rows = false ↔ ∃ n, (Sixteen.get rows n).state ≠ .absent := by
  rw [← Bool.not_eq_true, tableEmpty_iff, not_forall]

theorem removeRow_peers (n : Station) (s : State) : (removeRow n s).peers = Sixteen.set s.peers n Row.cleared := by
  obtain ⟨m, d, chs, f, frame⟩ := removeRow_frame n s
  rw [frame]

/-- A removal that empties the table of an ISOLATED station takes it to MEMBER. -/
theorem removeRow_of_emptied {n : Station} {s : State} (isolated : s.member.state = .isolated)
    (held : ∃ m, (Sixteen.get s.peers m).state ≠ .absent)
    (emptied : ∀ m, (Sixteen.get (Sixteen.set s.peers n Row.cleared) m).state = .absent) :
    removeRow n s = enterMember (raise .peer (setRow n Row.cleared s)) :=
  (if_pos ⟨(tableEmpty_eq_false_iff _).mpr held, (tableEmpty_iff _).mpr emptied⟩).trans (if_pos isolated)

/-- Any other removal clears its row and sets PEER alone. -/
theorem removeRow_of_not_emptied {n : Station} {s : State} (h : s.member.state ≠ .isolated
      ∨ (∃ m, (Sixteen.get (Sixteen.set s.peers n Row.cleared) m).state ≠ .absent)
      ∨ ∀ m, (Sixteen.get s.peers m).state = .absent) :
    removeRow n s = raise .peer (setRow n Row.cleared s) := by
  unfold removeRow
  dsimp only
  split
  case isFalse => rfl
  case isTrue notice =>
    obtain ⟨held, emptied⟩ := notice
    rcases h with elsewhere | kept | empty
    · exact if_neg elsewhere
    · exact absurd ((tableEmpty_iff _).mp emptied) (not_forall.mpr kept)
    · simp [(tableEmpty_iff _).mpr empty] at held

theorem flagSet_peer_removeRow (n : Station) (s : State) : flagSet .peer (removeRow n s) = true := by
  unfold removeRow takeEmptyTable
  dsimp only
  split
  · split
    · simp [flagSet_enterMember]
    · simp
  · simp

/-- What a removal that ends isolation does: the entry to MEMBER, and the heads that fit are granted. -/
theorem removeRow_ends_isolation {n : Station} {s : State} (isolated : s.member.state = .isolated)
    (held : ∃ m, (Sixteen.get s.peers m).state ≠ .absent)
    (emptied : ∀ m, (Sixteen.get (Sixteen.set s.peers n Row.cleared) m).state = .absent) :
    (removeRow n s).member = { s.member with state := .member, isolationCount := 0 }
      ∧ flagSet .membership (removeRow n s) = true
      ∧ HeadsGranted { s with
          peers := (removeRow n s).peers
          member := (removeRow n s).member
          port := { s.port with flags := s.port.flags ||| Event.peer.mask ||| Event.membership.mask } }
        (removeRow n s) := by
  rw [removeRow_of_emptied isolated held emptied, enterMember_peers]
  exact ⟨enterMember_member _, by simp [flagSet_enterMember],
    enterMember_grants (raise .peer (setRow n Row.cleared s))⟩

/-! ### A command byte (R154) -/

/-- A command code has been stored at CMD, and its block is to decide it (R152 to R154). -/
def State.cmdTaken (s : State) (code : Byte) : State :=
  { s with port := { s.port with link := .writing 0x1E, latch := none, cmd := code } }

/-- A command code is taken at the address of CMD: its block decides it, and CMD_RESULT takes the outcome. -/
theorem takeCommand_at_cmd {s : State} (link : s.port.link = .writing cmdAddress) (code : Byte)
    (decision : State → CmdResult × State) : takeCommand code decision s
      = setResult (decision (s.cmdTaken code)).1 (decision (s.cmdTaken code)).2 := by
  unfold takeCommand takeWrite
  rw [link]
  rfl

/-- Showing a command's outcome beside a head re-check leaves the re-check as it is. -/
theorem HeadsGranted.setResult {s t : State} (h : HeadsGranted s t) (code : CmdResult) :
    HeadsGranted (setResult code s) (setResult code t) := by
  obtain ⟨granted, kept, queue, result, fit, stop⟩ := h
  exact ⟨granted, kept, queue, by rw [result]; rfl, fit, stop⟩

/-- FORGET of a station number in range, of a RETIRED row (R36). -/
theorem forget_of_retired {s : State} (range : s.port.paramSelect.toNat ≤ 15)
    (retired : (Sixteen.get s.peers (s.port.paramSelect.setWidth 4)).state = .retired) :
    forget s = (.accepted, removeRow (s.port.paramSelect.setWidth 4) s) :=
  (if_neg (Nat.not_lt.mpr range)).trans (if_pos retired)

theorem forget_of_not_retired {s : State} (range : s.port.paramSelect.toNat ≤ 15)
    (other : (Sixteen.get s.peers (s.port.paramSelect.setWidth 4)).state ≠ .retired) :
    forget s = (.refusedState, s) :=
  (if_neg (Nat.not_lt.mpr range)).trans (if_neg other)

theorem forget_of_range {s : State} (range : 15 < s.port.paramSelect.toNat) : forget s = (.refusedRange, s) :=
  if_pos range

end Sys2Proof.Machine

section
open Sys2Proof Sys2Proof.Machine

/-- Settles O12: the frame is handed to its row, whose new fields are `Row.afterClaim`. -/
theorem claimArrivalReplacesItsRow : Obligations.ClaimArrivalReplacesItsRow := by
  intro s r n q c reception closed valid heard other
  refine ⟨claimArrival n q c s.receptionTaken, ?_, ?_, flagSet_peer_claimArrival n q c _, ?_, ?_⟩
  · rw [exec_receptionEnd_valid reception closed valid heard,
      takeFrame_claim_other (s := s.receptionTaken) q c other]
  · intro notIsolated
    rw [claimArrival_of_not_isolated (s := s.receptionTaken) n q c notIsolated]
    by_cases live : (Sixteen.get s.peers n).state = .live
    · simp [State.receptionTaken, live, raiseIf, setRow]
    · simp [State.receptionTaken, live, raiseIf, raise, setRow]
  · intro m elsewhere
    rw [claimArrival_peers]
    exact Sixteen.get_set_other _ _ _ _ elsewhere
  · rw [claimArrival_peers]
    exact Sixteen.get_set_same _ _ _

/-- Settles O14: the frame is handed to its row, and `removeRow` tells the emptied table of an ISOLATED station from
every other. -/
theorem leaveArrivalEmptiesItsRow : Obligations.LeaveArrivalEmptiesItsRow := by
  intro s r n q code reception closed valid heard other
  have peers : (removeRow n s.receptionTaken).peers = Sixteen.set s.peers n Row.cleared := removeRow_peers n _
  refine ⟨removeRow n s.receptionTaken, ?_, ?_, ?_, flagSet_peer_removeRow n _, ?_, ?_⟩
  · rw [exec_receptionEnd_valid reception closed valid heard,
      takeFrame_leave_other (s := s.receptionTaken) q code other]
  · rw [peers, Sixteen.get_set_same]
  · intro m elsewhere
    rw [peers, Sixteen.get_set_other _ _ _ _ elsewhere]
  · intro isolated held emptied
    exact removeRow_ends_isolation (s := s.receptionTaken) isolated held (peers ▸ emptied)
  · intro kept
    rw [peers] at kept ⊢
    exact removeRow_of_not_emptied (s := s.receptionTaken) kept

/-- Settles O44: the checks of FORGET in their order; an accepted one is a removal. -/
theorem forgetEmptiesARetiredRow : Obligations.ForgetEmptiesARetiredRow := by
  intro s link
  have taken := takeCommand_at_cmd link 4 Machine.forget
  rw [exec_forget, execForget, taken]
  refine ⟨?_, ?_, ?_⟩
  · intro range
    rw [forget_of_range (s := s.cmdTaken 4) range]
    rfl
  · intro range other
    rw [forget_of_not_retired (s := s.cmdTaken 4) range other]
    rfl
  · intro range retired
    have accepted : Machine.forget (s.cmdTaken 4)
        = (.accepted, removeRow (s.port.paramSelect.setWidth 4) (s.cmdTaken 4)) := forget_of_retired range retired
    rw [accepted]
    refine ⟨_, rfl, rfl, removeRow_peers _ (s.cmdTaken 4), flagSet_peer_removeRow _ (s.cmdTaken 4), ?_, ?_⟩
    · intro kept
      have listed : (∃ m, m ≠ s.port.paramSelect.setWidth 4 ∧ (Sixteen.get s.peers m).state ≠ .absent) →
          ∃ m, (Sixteen.get (Sixteen.set s.peers (s.port.paramSelect.setWidth 4) Row.cleared) m).state ≠ .absent :=
        fun ⟨m, other, held⟩ => ⟨m, by rw [Sixteen.get_set_other _ _ _ _ other]; exact held⟩
      have stays := removeRow_of_not_emptied (s := s.cmdTaken 4) (kept.imp id fun other => .inl (listed other))
      rw [stays]
      rfl
    · intro isolated absent
      have emptied : ∀ m, (Sixteen.get (Sixteen.set s.peers (s.port.paramSelect.setWidth 4) Row.cleared) m).state
          = .absent := by
        intro m
        by_cases same : m = s.port.paramSelect.setWidth 4
        · rw [same, Sixteen.get_set_same]
          rfl
        · rw [Sixteen.get_set_other _ _ _ _ same]
          exact absent m same
      obtain ⟨member, membership, granted⟩ := removeRow_ends_isolation (s := s.cmdTaken 4) isolated
        ⟨s.port.paramSelect.setWidth 4, fun none => absurd (retired.symm.trans none) (by decide)⟩ emptied
      exact ⟨member, membership, granted.setResult .accepted⟩

end
end

section
/-! PROOFS. A row aged ahead of its round close leaves that close as it was (log 4). -/

namespace Sys2Proof.Machine

/-! ### One place of sixteen -/

theorem Four.map_set {α β : Type} (g : α → β) (x : Four α) (i : Chan) (a : α) :
    (x.set i a).map g = (x.map g).set i (g a) := by
  rcases chan_cases i with rfl | rfl | rfl | rfl <;> rfl

theorem Sixteen.map_set {α β : Type} (g : α → β) (x : Sixteen α) (n : Station) (a : α) :
    Sixteen.map g (Sixteen.set x n a) = Sixteen.set (Sixteen.map g x) n (g a) := by
  simp [Sixteen.map, Sixteen.set, Four.map_set]

theorem Sixteen.set_get {α : Type} (x : Sixteen α) (n : Station) : Sixteen.set x n (Sixteen.get x n) = x := by
  simp [Sixteen.set, Sixteen.get]

/-! ### What does not look at the peer table -/

/-- Another peer table in place, with PEER set. -/
def State.showPeers (s : State) (rows : Sixteen Row) : State := raise .peer { s with peers := rows }

/-- An operation that acts the same whatever the peer table holds and whether PEER is set. -/
def PeerBlind (f : State → State) : Prop := ∀ s rows, f (s.showPeers rows) = (f s).showPeers rows

theorem PeerBlind.comp {f g : State → State} (hf : PeerBlind f) (hg : PeerBlind g) : PeerBlind fun s => f (g s) :=
  fun s rows => (congrArg f (hg s rows)).trans (hf (g s) rows)

theorem raise_blind (e : Event) : PeerBlind (raise e) := by
  intro s rows
  simp [State.showPeers, raise, BitVec.or_assoc, BitVec.or_comm e.mask]

theorem writeResult_blind (c : Chan) (tag : Byte) (code : ResultCode) : PeerBlind (writeResult c tag code) :=
  fun s => raise_blind .result
    { s with demand := { s.demand with lastResults := s.demand.lastResults.set c { tag := tag, code := code } } }

theorem enter_blind (st : StationState) : PeerBlind (enter st) :=
  fun s => raise_blind .membership { s with member := { s.member with state := st } }

theorem grantHead_blind (r : Request) (rest : List Request) : PeerBlind fun s => grantHead r (setRequests rest s) :=
  fun s => writeResult_blind r.channel r.tag .done
    (onChannel r.channel (Channel.grantLocally r.target r.priority) (setRequests rest s))

theorem recheckHeads_blind : ∀ fuel, PeerBlind (recheckHeads fuel)
  | 0, _, _ => rfl
  | fuel + 1, s, rows => by
    have kept : (s.showPeers rows).demand.requests = s.demand.requests := rfl
    unfold recheckHeads
    rw [kept]
    cases s.demand.requests with
    | nil => rfl
    | cons r rest =>
      have fits : fitsLocally (s.showPeers rows) r.channel r.target = fitsLocally s r.channel r.target := rfl
      dsimp only
      rw [fits]
      split
      · exact (recheckHeads_blind fuel).comp (grantHead_blind r rest) s rows
      · rfl

theorem headRecheck_blind : PeerBlind headRecheck := fun s rows => recheckHeads_blind s.demand.requests.length s rows

theorem enterMember_blind : PeerBlind enterMember := fun s rows =>
  (congrArg headRecheck (enter_blind .member { s with member := { s.member with isolationCount := 0 } } rows)).trans
    (headRecheck_blind _ rows)

theorem enterIsolated_blind : PeerBlind enterIsolated := by
  intro s rows
  have entered : onChannels (cutTo s.config.floor) (emptyAsk (enter .isolated (s.showPeers rows)))
      = (onChannels (cutTo s.config.floor) (emptyAsk (enter .isolated s))).showPeers rows :=
    congrArg (fun t => onChannels (cutTo s.config.floor) (emptyAsk t)) (enter_blind .isolated s rows)
  rw [enterIsolated_eq, enterIsolated_eq]
  unfold raiseIf
  by_cases above : s.config.floor < committedTotal s.outputs.channels
  · have cut : decide ((s.showPeers rows).config.floor < committedTotal (s.showPeers rows).outputs.channels) = true :=
      decide_eq_true above
    rw [cut, decide_eq_true above, if_pos rfl, if_pos rfl]
    exact (congrArg (raise .shed) entered).trans (raise_blind .shed _ rows)
  · have uncut : decide ((s.showPeers rows).config.floor < committedTotal (s.showPeers rows).outputs.channels) = false :=
      decide_eq_false above
    rw [uncut, decide_eq_false above, if_neg (by decide), if_neg (by decide)]
    exact entered

/-- An expiry that is taken under a condition on the controller and the configuration. -/
theorem PeerBlind.takenIf {f : State → State} (hf : PeerBlind f) (c : Membership → Configuration → Prop)
    [∀ m k, Decidable (c m k)] : PeerBlind fun s => if c s.member s.config then f s else s := by
  intro s rows
  by_cases h : c s.member s.config
  · exact (if_pos h).trans ((hf s rows).trans (congrArg (State.showPeers · rows) (if_pos h).symm))
  · exact (if_neg h).trans (congrArg (State.showPeers · rows) (if_neg h).symm)

theorem takeListenExpiry_blind : PeerBlind takeListenExpiry :=
  PeerBlind.takenIf (f := enterJoining)
    (fun s => enter_blind .joining { s with member := { s.member with joinCount := 0 } })
    fun m k => m.state = .listen ∧ k.lease + 1 ≤ m.listenCount

theorem takeJoinExpiry_blind : PeerBlind takeJoinExpiry :=
  enterMember_blind.takenIf fun m _ => m.state = .joining ∧ 2 ≤ m.joinCount

theorem takeIsolationExpiry_blind : PeerBlind takeIsolationExpiry :=
  enterIsolated_blind.takenIf fun m k => m.state = .member ∧ k.isolation ≤ m.isolationCount

theorem expireHead_blind : PeerBlind expireHead := by
  intro s rows
  cases queue : s.demand.requests with
  | nil => rw [expireHead_of_noRequests queue, expireHead_of_noRequests (s := s.showPeers rows) queue]
  | cons r rest =>
    rw [expireHead_cons queue, expireHead_cons (s := s.showPeers rows) queue]
    by_cases reached : 0 < s.config.askLimit ∧ s.config.askLimit ≤ r.age
    · rw [if_pos reached]
      exact (if_pos reached).trans (writeResult_blind r.channel r.tag .expired (setRequests rest s) rows)
    · rw [if_neg reached]
      exact if_neg reached

theorem takeLeftExpiries_blind : PeerBlind takeLeftExpiries :=
  takeListenExpiry_blind.comp (takeJoinExpiry_blind.comp (takeIsolationExpiry_blind.comp expireHead_blind))

/-! ### The close after a row has aged ahead -/

/-- A row aged ahead stands in the round view as it would without that. -/
theorem roundView_ageAhead {s : State} {n : Station} (first : (Sixteen.get s.peers n).agedAhead = false) :
    roundView (s.ageAhead n) = roundView s := by
  have aged : Row.age s.config.lease s.config.retire
      { (Sixteen.get s.peers n).age s.config.lease s.config.retire with agedAhead := true }
      = (Sixteen.get s.peers n).age s.config.lease s.config.retire := by
    obtain ⟨st, m, k, frame⟩ := Row.age_frame s.config.lease s.config.retire first
    rw [Row.age_of_agedAhead _ _ rfl, frame, ← first]
  calc roundView (s.ageAhead n)
      = Sixteen.map (Row.age s.config.lease s.config.retire) (Sixteen.set s.peers n
          { (Sixteen.get s.peers n).age s.config.lease s.config.retire with agedAhead := true }) := rfl
    _ = Sixteen.set (roundView s) n (Sixteen.get (roundView s) n) := by
      rw [Sixteen.map_set, aged, roundView, Sixteen.get_map]
    _ = roundView s := Sixteen.set_get _ _

/-- The table closes the same: the view is the same, and PEER is set either way (R39). -/
theorem closeTable_ageAhead {s : State} {n : Station} (first : (Sixteen.get s.peers n).agedAhead = false)
    (turns : ((Sixteen.get s.peers n).age s.config.lease s.config.retire).state ≠ (Sixteen.get s.peers n).state) :
    closeTable (s.ageAhead n) = closeTable s := by
  rw [closeTable_eq, closeTable_eq, roundView_ageAhead first, if_pos (agingShows_of_turn turns)]
  generalize agingShows (s.ageAhead n).config.lease (s.ageAhead n).config.retire (s.ageAhead n).peers = again
  cases again
  · rfl
  · simp [State.ageAhead, raise, setRow, BitVec.or_assoc]

/-- The close after a row has aged ahead is the close alone. -/
theorem closeRound_ageAhead (order : CloseOrder) {s : State} {n : Station} (idle : s.line.idle = true)
    (first : (Sixteen.get s.peers n).agedAhead = false)
    (turns : ((Sixteen.get s.peers n).age s.config.lease s.config.retire).state ≠ (Sixteen.get s.peers n).state) :
    closeRound order (s.ageAhead n) = closeRound order s := by
  obtain ⟨m, a, d, chs, f, left⟩ := takeLeftExpiries_frame s
  have later : takeLeftExpiries (s.ageAhead n) = (takeLeftExpiries s).ageAhead n := by
    refine (takeLeftExpiries_blind s _).trans ?_
    rw [left]
    rfl
  rw [closeRound_eq order idle, closeRound_eq order (s := s.ageAhead n) idle, later, roundView_ageAhead first]
  have table : closeTable (onLine LineInterface.closeRound ((takeLeftExpiries s).ageAhead n))
      = closeTable (onLine LineInterface.closeRound (takeLeftExpiries s)) := by
    rw [left]
    exact closeTable_ageAhead (s := onLine LineInterface.closeRound (s.withMember m a d chs f)) first turns
  rw [table]

end Sys2Proof.Machine

section
open Sys2Proof Sys2Proof.Machine

/-- Settles O23: an expiry row does nothing or ages its row ahead, and the close is blind to that. -/
theorem expiryRowsAheadOfACloseChangeNothing : Obligations.ExpiryRowsAheadOfACloseChangeNothing := by
  intro order s t n c row idle taken
  have expiry : t = s ∨ t = s.ageAhead n ∧ (Sixteen.get s.peers n).agedAhead = false
      ∧ ((Sixteen.get s.peers n).age s.config.lease s.config.retire).state ≠ (Sixteen.get s.peers n).state := by
    rcases row with rfl | rfl
    · obtain rfl := Host.Outcome.next.inj taken
      exact takeLeaseExpiry_cases n s
    · obtain rfl := Host.Outcome.next.inj taken
      exact takeRetireExpiry_cases n s
  rcases expiry with rfl | ⟨rfl, first, turns⟩
  · rfl
  · exact congrArg Host.Outcome.next (closeRound_ageAhead order idle first turns)

end
end

section
/-! PROOFS. The part until start-up ends, and the row of the own station number after every command (R23, R149). -/

namespace Sys2Proof.Machine

/-! ### Bytes of the local port (R151 to R154) -/

/-- A data byte has its effect at its address, or is not this event (log 12). -/
theorem takeWrite_cases (ok : BitVec 7 → Bool) (effect : BitVec 7 → State → State) (s : State) :
    takeWrite ok effect s = s
      ∨ ∃ a, ok a = true ∧ s.port.link = .writing a
        ∧ takeWrite ok effect s = effect a (onPort (LocalPort.takeByte a) s) := by
  unfold takeWrite
  cases link : s.port.link with
  | writing a =>
    dsimp only
    split
    case isTrue accepted => exact .inr ⟨a, accepted, rfl, rfl⟩
    case isFalse => exact .inl rfl
  | released | ignored | awaiting | reading => exact .inl rfl

/-- A command byte is decided by its block and answered, or is not this event (R154, log 12). -/
theorem takeCommand_cases (code : Byte) (decision : State → CmdResult × State) (s : State) :
    takeCommand code decision s = s ∨ takeCommand code decision s
      = setResult (decision (s.cmdTaken code)).1 (decision (s.cmdTaken code)).2 := by
  rcases takeWrite_cases (fun a => decide (a = cmdAddress)) (fun _ t =>
      setResult (decision (onPort (fun p => { p with cmd := code }) t)).1
        (decision (onPort (fun p => { p with cmd := code }) t)).2) s with same | ⟨a, accepted, link, -⟩
  · exact .inl same
  · obtain rfl : a = cmdAddress := by simpa using accepted
    exact .inr (takeCommand_at_cmd link code decision)

/-- The rows of the local port and of the store that no other block sees. -/
def isPortOrStoreRow : Instr → Bool
  | .storeWrite | .refusedUnknown _ | .writeOperationDone | .writeTimeout | .supplyLow _ | .storeKey _ => true
  | .rawEvents _ | .en _ | .registerWrite _ | .readLatch | .transactionStart | .addressByte _ | .transactionEnd => true
  | _ => false

/-- Another store and another port in place; the station number in force stays. -/
def PortAndStoreMoved (s t : State) : Prop :=
  ∃ x p n, t = { s with store := x, port := p, freeIndex := n } ∧ x.station = s.store.station

theorem PortAndStoreMoved.rfl {s : State} : PortAndStoreMoved s s := ⟨s.store, s.port, s.freeIndex, Eq.refl _, Eq.refl _⟩

theorem takeWrite_moves {effect : BitVec 7 → State → State}
    (h : ∀ a s, PortAndStoreMoved s (effect a s)) (ok : BitVec 7 → Bool) (s : State) :
    PortAndStoreMoved s (takeWrite ok effect s) := by
  rcases takeWrite_cases ok effect s with same | ⟨a, -, -, taken⟩
  · rw [same]
    exact .rfl
  · obtain ⟨x, p, n, moved, station⟩ := h a (onPort (LocalPort.takeByte a) s)
    exact ⟨x, p, n, by rw [taken, moved]; rfl, station⟩

theorem takeCommand_moves {decision : State → CmdResult × State} (h : ∀ s, PortAndStoreMoved s (decision s).2)
    (code : Byte) (s : State) : PortAndStoreMoved s (takeCommand code decision s) := by
  rcases takeCommand_cases code decision s with same | decided
  · rw [same]
    exact .rfl
  · obtain ⟨x, p, n, moved, station⟩ := h (s.cmdTaken code)
    exact ⟨x, _, n, by rw [decided, moved]; rfl, station⟩

theorem storeWrite_moves (s : State) : PortAndStoreMoved s (storeWrite s).2 := by
  unfold storeWrite
  split
  · exact .rfl
  split
  · exact .rfl
  split
  · exact .rfl
  split
  · exact .rfl
  split
  · exact .rfl
  · exact ⟨_, _, _, rfl, rfl⟩

/-- A row of the port or the store moves those two alone. -/
theorem exec_moves {i : Instr} (row : isPortOrStoreRow i = true) (s : State) :
    ∃ t, exec i s = .next t ∧ PortAndStoreMoved s t := by
  cases i with
  | storeWrite => exact ⟨_, rfl, takeCommand_moves storeWrite_moves 7 s⟩
  | refusedUnknown code =>
    refine ⟨_, rfl, ?_⟩
    split
    · exact takeCommand_moves (fun _ => .rfl) code s
    · exact .rfl
  | writeOperationDone =>
    refine ⟨_, rfl, ?_⟩
    unfold finishWrite
    cases s.store.write with
    | none => exact .rfl
    | some w => exact ⟨_, _, _, rfl, rfl⟩
  | writeTimeout =>
    refine ⟨_, rfl, ?_⟩
    unfold timeOutWrite
    cases s.store.write with
    | none => exact .rfl
    | some w => exact ⟨_, _, _, rfl, rfl⟩
  | supplyLow below =>
    refine ⟨_, rfl, ?_⟩
    unfold crossSupply
    dsimp only
    split
    · exact ⟨_, _, _, rfl, rfl⟩
    · exact ⟨_, _, _, rfl, rfl⟩
  | storeKey value =>
    refine ⟨_, rfl, takeWrite_moves (fun _ _ => ?_) _ s⟩
    exact ⟨_, _, _, rfl, rfl⟩
  | rawEvents value => exact ⟨_, rfl, takeWrite_moves (fun _ _ => ⟨_, _, _, rfl, rfl⟩) _ s⟩
  | en value => exact ⟨_, rfl, takeWrite_moves (fun _ _ => ⟨_, _, _, rfl, rfl⟩) _ s⟩
  | registerWrite value => exact ⟨_, rfl, takeWrite_moves (fun _ _ => ⟨_, _, _, rfl, rfl⟩) _ s⟩
  | readLatch =>
    refine ⟨_, rfl, ?_⟩
    unfold captureByte
    cases s.port.link with
    | reading a => exact ⟨_, _, _, rfl, rfl⟩
    | released | ignored | awaiting | writing => exact .rfl
  | transactionStart =>
    refine ⟨_, rfl, ?_⟩
    unfold selectLow
    cases s.port.link with
    | released =>
      dsimp only
      split
      · exact ⟨_, _, _, rfl, rfl⟩
      · exact ⟨_, _, _, rfl, rfl⟩
    | ignored | awaiting | reading | writing => exact .rfl
  | addressByte value =>
    refine ⟨_, rfl, ?_⟩
    unfold takeAddress
    cases s.port.link with
    | awaiting => exact ⟨_, _, _, rfl, rfl⟩
    | released | ignored | reading | writing => exact .rfl
  | transactionEnd => exact ⟨_, rfl, _, _, _, rfl, rfl⟩
  | _ => cases row

/-! ### Until start-up ends (R18, R23, R42, R81, R100, R115, R130, R149) -/

/-- A state in which every block but the store and the port is as after reset. -/
def State.atRest (phase : Phase) (store : ConfigStore) (port : LocalPort) (free : Nat) (queue : List Instr) : State :=
  { State.reset with phase := phase, store := store, port := port, freeIndex := free, pending := queue }

/-- A state of rest, with start-up still to end. -/
def StillAtRest (t : State) : Prop :=
  ∃ phase store port free queue, phase.isRunning = false ∧ t = State.atRest phase store port free queue

theorem restsUntilStartUp_atRest (phase : Phase) (store : ConfigStore) (port : LocalPort) (free : Nat)
    (queue : List Instr) : restsUntilStartUp (State.atRest phase store port free queue) = true := by
  simp [restsUntilStartUp, State.atRest]

theorem stillAtRest_of_rests {s : State} (rests : restsUntilStartUp s = true) (h : s.phase.isRunning = false) :
    StillAtRest s := by
  refine ⟨s.phase, s.store, s.port, s.freeIndex, s.pending, h, ?_⟩
  unfold restsUntilStartUp at rests
  rw [h, Bool.false_or, decide_eq_true_eq] at rests
  obtain ⟨line, peers, share, member, demand, outputs, sense, config⟩ := rests
  rw [State.atRest, ← line, ← peers, ← share, ← member, ← demand, ← outputs, ← sense, ← config]

theorem stillAtRest_of_moved {s t : State} (rests : StillAtRest s) (h : PortAndStoreMoved s t) : StillAtRest t := by
  obtain ⟨phase, store, port, free, queue, held, rfl⟩ := rests
  obtain ⟨x, p, n, rfl, -⟩ := h
  exact ⟨phase, x, p, n, queue, held, rfl⟩

/-- A command that its block refuses leaves a state of rest. -/
theorem takeCommand_atRest {decision : State → CmdResult × State} (refused : ∀ s, StillAtRest s → (decision s).2 = s)
    (code : Byte) {s : State} (rests : StillAtRest s) : StillAtRest (takeCommand code decision s) := by
  rcases takeCommand_cases code decision s with same | decided
  · rw [same]
    exact rests
  · have taken : StillAtRest (s.cmdTaken code) := stillAtRest_of_moved rests ⟨_, _, _, rfl, rfl⟩
    rw [decided, refused _ taken]
    exact stillAtRest_of_moved taken ⟨_, _, _, rfl, rfl⟩

/-- A station in START with an empty queue, no tripped channel and no RETIRED row refuses what acts on those. -/
theorem submit_atRest {s : State} (h : StillAtRest s) : (submit s).2 = s := by
  obtain ⟨phase, store, port, free, queue, held, rfl⟩ := h
  have refused : ∃ code, submitRefusal (State.atRest phase store port free queue) = some code := by
    unfold submitRefusal
    dsimp only
    split
    · exact ⟨_, rfl⟩
    · split
      · exact ⟨_, rfl⟩
      · exact ⟨_, rfl⟩
  obtain ⟨code, refused⟩ := refused
  unfold submit
  rw [refused]

theorem withdraw_atRest {s : State} (h : StillAtRest s) : (withdraw s).2 = s := by
  obtain ⟨phase, store, port, free, queue, held, rfl⟩ := h
  unfold withdraw
  dsimp only
  split
  · rfl
  · rfl

theorem clearTrip_atRest {s : State} (h : StillAtRest s) : (clearTrip s).2 = s := by
  obtain ⟨phase, store, port, free, queue, held, rfl⟩ := h
  unfold clearTrip
  have normal : ∀ c, ((State.atRest phase store port free queue).outputs.channels.get c).tripped = false :=
    fun c => congrArg Channel.tripped (Four.get_same Channel.reset c)
  dsimp only
  rw [normal]
  split
  · rfl
  · rfl

theorem forget_atRest {s : State} (h : StillAtRest s) : (forget s).2 = s := by
  obtain ⟨phase, store, port, free, queue, held, rfl⟩ := h
  unfold forget
  have absent : ∀ n, (Sixteen.get (State.atRest phase store port free queue).peers n).state = .absent :=
    fun n => congrArg Row.state (Sixteen.get_same Row.cleared n)
  dsimp only
  rw [absent]
  split
  · rfl
  · rfl

theorem park_atRest {s : State} (h : StillAtRest s) : (park s).2 = s := by
  obtain ⟨phase, store, port, free, queue, held, rfl⟩ := h
  rfl

theorem rejoin_atRest {s : State} (h : StillAtRest s) : (rejoin s).2 = s := by
  obtain ⟨phase, store, port, free, queue, held, rfl⟩ := h
  rfl

/-- A reset cause leaves a state of rest, whatever state it finds (R149). -/
theorem resetBlocks_atRest (cause : ResetCause) (s : State) : StillAtRest (resetBlocks cause s) :=
  ⟨_, _, _, _, _, rfl, rfl⟩

theorem beginReset_atRest (cause : ResetCause) {s : State} (h : StillAtRest s) : StillAtRest (beginReset cause s) := by
  obtain ⟨phase, store, port, free, queue, held, rfl⟩ := h
  cases phase with
  | inReset causes => exact ⟨_, _, _, _, _, rfl, rfl⟩
  | startUp => exact resetBlocks_atRest cause _
  | running => cases held

/-- Until start-up ends, every command but its end leaves a state of rest. -/
theorem exec_atRest {i : Instr} (other : i ≠ .startUpEnd) {s : State} (h : StillAtRest s) :
    ∃ t, exec i s = .next t ∧ StillAtRest t := by
  by_cases row : isPortOrStoreRow i = true
  · obtain ⟨t, next, moved⟩ := exec_moves row s
    exact ⟨t, next, stillAtRest_of_moved h moved⟩
  cases i with
  | startUpEnd => exact absurd rfl other
  | powerOn => exact ⟨_, rfl, beginReset_atRest .power h⟩
  | resetPinAsserted => exact ⟨_, rfl, beginReset_atRest .pin h⟩
  | supplyReset => exact ⟨_, rfl, beginReset_atRest .supply h⟩
  | resetEnd straps =>
    obtain ⟨phase, store, port, free, queue, held, rfl⟩ := h
    cases phase with
    | inReset causes => exact ⟨_, rfl, _, _, _, _, _, rfl, rfl⟩
    | startUp => exact ⟨_, rfl, _, _, _, _, _, rfl, rfl⟩
    | running => cases held
  | submit => exact ⟨_, rfl, takeCommand_atRest (fun _ => submit_atRest) 1 h⟩
  | withdraw => exact ⟨_, rfl, takeCommand_atRest (fun _ => withdraw_atRest) 2 h⟩
  | clear => exact ⟨_, rfl, takeCommand_atRest (fun _ => clearTrip_atRest) 3 h⟩
  | forget => exact ⟨_, rfl, takeCommand_atRest (fun _ => forget_atRest) 4 h⟩
  | park => exact ⟨_, rfl, takeCommand_atRest (fun _ => park_atRest) 5 h⟩
  | rejoin => exact ⟨_, rfl, takeCommand_atRest (fun _ => rejoin_atRest) 6 h⟩
  | restart =>
    have refused : restartRefusal s = some .refusedState := by
      obtain ⟨phase, store, port, free, queue, held, rfl⟩ := h
      rfl
    have taken := takeCommand_atRest (decision := fun t => (.refusedState, t)) (fun _ _ => rfl) 8 h
    refine ⟨_, rfl, ?_⟩
    rw [refused]
    exact taken
  | storeWrite | refusedUnknown | writeOperationDone | writeTimeout | supplyLow | storeKey | rawEvents | en
  | registerWrite | readLatch | transactionStart | addressByte | transactionEnd => exact absurd rfl row
  -- The subject of every other command is absent: no line is active, no period runs, and the station is in START.
  | _ =>
    obtain ⟨phase, store, port, free, queue, held, rfl⟩ := h
    exact ⟨_, rfl, phase, store, port, free, queue, held, rfl⟩

end Sys2Proof.Machine
end

section
/-! PROOFS. The row of the own station number while the part runs (R5, R23). -/

namespace Sys2Proof.Machine

/-- What keeps the own row ABSENT: the phase and the station number in force stay, and so does a cleared own row. -/
def KeepsOwnRow (s t : State) : Prop :=
  t.phase = s.phase ∧ t.store.station = s.store.station
    ∧ (Sixteen.get s.peers s.store.station = Row.cleared → Sixteen.get t.peers s.store.station = Row.cleared)

section Kept
variable {s t u : State}

theorem KeepsOwnRow.rfl : KeepsOwnRow s s := ⟨Eq.refl _, Eq.refl _, id⟩

theorem KeepsOwnRow.trans (h : KeepsOwnRow s t) (h' : KeepsOwnRow t u) : KeepsOwnRow s u := by
  obtain ⟨phase, station, row⟩ := h
  obtain ⟨phase', station', row'⟩ := h'
  rw [station] at station' row'
  exact ⟨phase'.trans phase, station', fun cleared => row' (row cleared)⟩

theorem KeepsOwnRow.of_moved (h : PortAndStoreMoved s t) : KeepsOwnRow s t := by
  obtain ⟨x, p, n, rfl, station⟩ := h
  exact ⟨Eq.refl _, station, id⟩

/-- A change of another station's row. -/
theorem KeepsOwnRow.of_other {n : Station} {r : Row} (phase : t.phase = s.phase)
    (station : t.store.station = s.store.station) (other : n ≠ s.store.station)
    (peers : t.peers = Sixteen.set s.peers n r) : KeepsOwnRow s t :=
  ⟨phase, station, fun cleared => by rw [peers, Sixteen.get_set_other _ _ _ _ other.symm, cleared]⟩

end Kept

/-! ### Receptions and removals (R5, R23) -/

theorem removeRow_keepsOwnRow (n : Station) (s : State) : KeepsOwnRow s (removeRow n s) := by
  obtain ⟨m, d, chs, f, frame⟩ := removeRow_frame n s
  rw [frame]
  refine ⟨rfl, rfl, fun cleared => ?_⟩
  dsimp only
  by_cases same : s.store.station = n
  · rw [same, Sixteen.get_set_same]
  · rw [Sixteen.get_set_other _ _ _ _ same, cleared]

/-- A frame with the own number reaches no row (R5). -/
theorem takeFrame_keepsOwnRow (f : Frame) (s : State) : KeepsOwnRow s (takeFrame f s) := by
  have duplicate : KeepsOwnRow s (takeDuplicate s) := by
    obtain ⟨m, l, a, d, chs, f, frame⟩ := takeDuplicate_frame s
    rw [frame]
    exact ⟨rfl, rfl, id⟩
  unfold takeFrame
  cases f with
  | claim n q c =>
    dsimp only
    split
    case isTrue => exact duplicate
    case isFalse other =>
      obtain ⟨m, d, chs, f, frame⟩ := claimArrival_frame n q c s
      rw [frame]
      exact .of_other rfl rfl other rfl
  | leave n q code =>
    dsimp only
    split
    case isTrue => exact duplicate
    case isFalse => exact removeRow_keepsOwnRow n s

theorem endReception_keepsOwnRow (s : State) : KeepsOwnRow s (endReception s) := by
  unfold endReception
  split
  · dsimp only
    split
    · exact ⟨rfl, rfl, id⟩
    · split
      · exact ⟨rfl, rfl, id⟩
      · exact KeepsOwnRow.trans ⟨rfl, rfl, id⟩ (takeFrame_keepsOwnRow _ _)
  · exact .rfl

/-! ### Rounds (R7, R32, R33, R46) -/

theorem closeRound_keepsOwnRow (order : CloseOrder) (s : State) : KeepsOwnRow s (closeRound order s) := by
  by_cases idle : s.line.idle = true
  · obtain ⟨m, a, d, chs, f, left⟩ := takeLeftExpiries_frame s
    obtain ⟨m', a', d', chs', f', counts⟩ := closeCounts_frame order (roundView s)
      (closeTable (onLine LineInterface.closeRound (takeLeftExpiries s)))
    rw [closeRound_eq order idle, counts, closeTable_eq, left]
    refine ⟨rfl, rfl, fun cleared => ?_⟩
    have row : Sixteen.get (Sixteen.map Row.unmark (roundView s)) s.store.station = Row.cleared := by
      rw [roundView, Sixteen.get_map, Sixteen.get_map, cleared]
      rfl
    exact row
  · rw [show closeRound order s = s from if_neg idle]
    exact .rfl

/-- A row that ages ahead of its close is not the own one, which is ABSENT. -/
theorem ageAhead_keepsOwnRow {n : Station} {s : State}
    (turns : ((Sixteen.get s.peers n).age s.config.lease s.config.retire).state ≠ (Sixteen.get s.peers n).state) :
    KeepsOwnRow s (s.ageAhead n) := by
  by_cases same : n = s.store.station
  · refine ⟨rfl, rfl, fun cleared => absurd ?_ turns⟩
    rw [same, cleared]
    rfl
  · exact .of_other rfl rfl same rfl

theorem takeLeaseExpiry_keepsOwnRow (n : Station) (s : State) : KeepsOwnRow s (takeLeaseExpiry n s) := by
  rcases takeLeaseExpiry_cases n s with same | ⟨taken, -, turns⟩
  · rw [same]
    exact .rfl
  · rw [taken]
    exact ageAhead_keepsOwnRow turns

theorem takeRetireExpiry_keepsOwnRow (n : Station) (s : State) : KeepsOwnRow s (takeRetireExpiry n s) := by
  rcases takeRetireExpiry_cases n s with same | ⟨taken, -, turns⟩
  · rw [same]
    exact .rfl
  · rw [taken]
    exact ageAhead_keepsOwnRow turns

theorem completeShare_keepsOwnRow (s : State) : KeepsOwnRow s (completeShare s) := by
  by_cases flight : s.share.flight.isSome = true
  · obtain ⟨l, a, frame⟩ := completeShare_frame flight
    obtain ⟨n, d, chs, f, parts⟩ := completed_frame s
    rw [frame, parts]
    exact ⟨rfl, rfl, id⟩
  · have none : s.share.flight = none := by simpa using flight
    unfold completeShare
    rw [none]
    exact .rfl

theorem expireLineWatch_keepsOwnRow (s : State) : KeepsOwnRow s (expireLineWatch s) := by
  unfold expireLineWatch
  split
  · obtain ⟨m, a, d, chs, f, frame⟩ :=
      takeLineWatch_frame (raiseLine .stuck (onLine (fun l => { l with lineWatch := 0 }) s))
    rw [frame]
    exact ⟨rfl, rfl, id⟩
  · exact .rfl

/-! ### Attempts (R11 to R16) -/

theorem expireDeferral_keepsOwnRow (s : State) : KeepsOwnRow s (expireDeferral s) := by
  by_cases first : s.line.idle = true ∧ s.line.deferralExpired = false
  · obtain ⟨idle, unexpired⟩ := first
    obtain ⟨l, a, frame⟩ := tryAttempt_frame s.noteExpiry
    rw [expireDeferral_eq idle unexpired, frame]
    exact ⟨rfl, rfl, id⟩
  · rw [show expireDeferral s = s from if_neg first]
    exact .rfl

theorem collide_keepsOwnRow (s : State) : KeepsOwnRow s (collide s) := by
  unfold collide
  split
  · dsimp only
    split
    · exact ⟨rfl, rfl, id⟩
    · exact ⟨rfl, rfl, id⟩
  · exact .rfl

theorem completeTransmit_keepsOwnRow (s : State) : KeepsOwnRow s (completeTransmit s) := by
  unfold completeTransmit
  split
  · obtain ⟨d, chs, f, frame⟩ := headRecheck_frame (onChannels (Four.map Channel.release)
      (setOwn _ (onLine LineInterface.complete s)))
    rw [frame]
    exact ⟨rfl, rfl, id⟩
  · dsimp only
    split
    · exact ⟨rfl, rfl, id⟩
    · exact ⟨rfl, rfl, id⟩
  · exact .rfl
  · exact .rfl

/-! ### Periods and conversions (R117, R131, R132, R134) -/

theorem takeTripRequests_keepsOwnRow (s : State) : KeepsOwnRow s (takeTripRequests s) := by
  obtain ⟨v, d, chs, f, frame⟩ := takeTripRequests_frame s
  rw [frame]
  exact ⟨rfl, rfl, id⟩

theorem startPeriod_keepsOwnRow (s : State) : KeepsOwnRow s (startPeriod s) := ⟨rfl, rfl, id⟩

theorem completeConversion_keepsOwnRow (c : Chan) (raw : BitVec 10) (s : State) :
    KeepsOwnRow s (completeConversion c raw s) := ⟨rfl, rfl, id⟩

theorem handTripRequest_keepsOwnRow (c : Chan) (trip : TripTaking) (s : State) :
    KeepsOwnRow s (handTripRequest c trip s) := by
  obtain ⟨v, d, chs, f, frame⟩ := handTripRequest_frame c trip s
  rw [frame]
  exact ⟨rfl, rfl, id⟩

/-! ### Commands (R154) -/

theorem takeCommand_keepsOwnRow {decision : State → CmdResult × State} (h : ∀ s, KeepsOwnRow s (decision s).2)
    (code : Byte) (s : State) : KeepsOwnRow s (takeCommand code decision s) := by
  rcases takeCommand_cases code decision s with same | decided
  · rw [same]
    exact .rfl
  · rw [decided]
    have taken : KeepsOwnRow s (s.cmdTaken code) := ⟨rfl, rfl, id⟩
    exact taken.trans ((h _).trans ⟨rfl, rfl, id⟩)

theorem submit_keepsOwnRow (s : State) : KeepsOwnRow s (submit s).2 := by
  unfold submit
  split
  · exact .rfl
  · obtain ⟨d, chs, f, frame⟩ := carrySubmit_frame (s.port.paramSelect.setWidth 2) s.port.paramTarget.toNat
      (s.port.paramPriority.setWidth 3) s.port.paramTag s
    rw [frame]
    exact ⟨rfl, rfl, id⟩

theorem withdraw_keepsOwnRow (s : State) : KeepsOwnRow s (withdraw s).2 := by
  unfold withdraw
  dsimp only
  split
  · exact .rfl
  · split
    · exact .rfl
    · obtain ⟨d, f, frame⟩ := endRequestFor_frame (s.port.paramSelect.setWidth 2) .withdrawn s
      rw [frame]
      exact ⟨rfl, rfl, id⟩

theorem clearTrip_keepsOwnRow (s : State) : KeepsOwnRow s (clearTrip s).2 := by
  unfold clearTrip
  dsimp only
  split
  · exact .rfl
  · split
    · exact ⟨rfl, rfl, id⟩
    · exact .rfl

theorem forget_keepsOwnRow (s : State) : KeepsOwnRow s (forget s).2 := by
  unfold forget
  dsimp only
  split
  · exact .rfl
  · split
    · exact removeRow_keepsOwnRow _ s
    · exact .rfl

theorem park_keepsOwnRow (s : State) : KeepsOwnRow s (park s).2 := by
  have ended : ∀ t, KeepsOwnRow t (endAllParked t) := by
    intro t
    obtain ⟨d, f, frame, -⟩ := endAllParked_frame t
    rw [frame]
    exact ⟨rfl, rfl, id⟩
  unfold park
  cases s.member.state with
  | listen => exact KeepsOwnRow.trans ⟨rfl, rfl, id⟩ (ended _)
  | joining | member | isolated =>
    exact KeepsOwnRow.trans ⟨rfl, rfl, id⟩ ((ended (emptyAsk (enter .parking s))).trans ⟨rfl, rfl, id⟩)
  | start | parking | parked | fault => exact .rfl

theorem rejoin_keepsOwnRow (s : State) : KeepsOwnRow s (rejoin s).2 := by
  unfold rejoin
  split
  · exact ⟨rfl, rfl, id⟩
  · exact .rfl

theorem passBitTime_keepsOwnRow (s : State) : KeepsOwnRow s (passBitTime s) := by
  unfold passBitTime
  split
  · exact ⟨rfl, rfl, id⟩
  · exact .rfl

/-! ### Every command of a running part -/

theorem beginReset_of_running (cause : ResetCause) {s : State} (running : s.phase = .running) :
    StillAtRest (beginReset cause s) := by
  unfold beginReset
  rw [running]
  exact resetBlocks_atRest cause s

/-- A running part is reset, or keeps running with its own row as it was. -/
theorem exec_of_running (i : Instr) {s : State} (running : s.phase = .running) :
    ∃ t, exec i s = .next t ∧ (KeepsOwnRow s t ∨ StillAtRest t) := by
  by_cases row : isPortOrStoreRow i = true
  · obtain ⟨t, next, moved⟩ := exec_moves row s
    exact ⟨t, next, .inl (.of_moved moved)⟩
  cases i with
  | powerOn => exact ⟨_, rfl, .inr (beginReset_of_running .power running)⟩
  | resetPinAsserted => exact ⟨_, rfl, .inr (beginReset_of_running .pin running)⟩
  | supplyReset => exact ⟨_, rfl, .inr (beginReset_of_running .supply running)⟩
  | restart =>
    refine ⟨_, rfl, ?_⟩
    split
    case h_1 code _ => exact .inl (takeCommand_keepsOwnRow (fun _ => .rfl) 8 s)
    case h_2 =>
      rcases takeWrite_cases (fun a => decide (a = cmdAddress)) (fun _ t => beginReset .restart t) s with
        same | ⟨a, -, -, taken⟩
      · rw [same]
        exact .inl .rfl
      · rw [taken]
        exact .inr (beginReset_of_running .restart running)
  | resetEnd straps =>
    refine ⟨_, rfl, .inl ?_⟩
    unfold endReset
    rw [running]
    exact .rfl
  | startUpEnd =>
    refine ⟨_, rfl, .inl ?_⟩
    unfold endStartUp
    rw [running]
    exact .rfl
  | receiverReady | synchronisingTransition | startBitConfirmed | characterSlotEnd =>
    exact ⟨_, rfl, .inl ⟨rfl, rfl, id⟩⟩
  | receptionEnd => exact ⟨_, rfl, .inl (endReception_keepsOwnRow s)⟩
  | roundClose order => exact ⟨_, rfl, .inl (closeRound_keepsOwnRow order s)⟩
  | leaseExpiry n => exact ⟨_, rfl, .inl (takeLeaseExpiry_keepsOwnRow n s)⟩
  | retireExpiry n => exact ⟨_, rfl, .inl (takeRetireExpiry_keepsOwnRow n s)⟩
  | listenCountExpiry =>
    obtain ⟨m, d, chs, f, frame⟩ := takeListenExpiry_frame s
    exact ⟨_, congrArg Host.Outcome.next frame, .inl ⟨rfl, rfl, id⟩⟩
  | joinCountExpiry =>
    obtain ⟨m, d, chs, f, frame⟩ := takeJoinExpiry_frame s
    exact ⟨_, congrArg Host.Outcome.next frame, .inl ⟨rfl, rfl, id⟩⟩
  | isolationCountExpiry =>
    obtain ⟨m, a, d, chs, f, frame⟩ := takeIsolationExpiry_frame s
    exact ⟨_, congrArg Host.Outcome.next frame, .inl ⟨rfl, rfl, id⟩⟩
  | askLimitExpiry =>
    obtain ⟨d, f, frame⟩ := expireHead_frame s
    exact ⟨_, congrArg Host.Outcome.next frame, .inl ⟨rfl, rfl, id⟩⟩
  | shareComputationCompletion => exact ⟨_, rfl, .inl (completeShare_keepsOwnRow s)⟩
  | lineWatchExpiry => exact ⟨_, rfl, .inl (expireLineWatch_keepsOwnRow s)⟩
  | deferralExpiry => exact ⟨_, rfl, .inl (expireDeferral_keepsOwnRow s)⟩
  | collision => exact ⟨_, rfl, .inl (collide_keepsOwnRow s)⟩
  | transmitComplete => exact ⟨_, rfl, .inl (completeTransmit_keepsOwnRow s)⟩
  | periodStart =>
    refine ⟨_, rfl, .inl ?_⟩
    split
    · exact (takeTripRequests_keepsOwnRow s).trans (startPeriod_keepsOwnRow _)
    · exact .rfl
  | onCountEnd c =>
    refine ⟨_, rfl, .inl ?_⟩
    split
    · exact ⟨rfl, rfl, id⟩
    · exact .rfl
  | conversionPass =>
    refine ⟨_, rfl, .inl ?_⟩
    split
    · exact (takeTripRequests_keepsOwnRow s).trans ⟨rfl, rfl, id⟩
    · exact .rfl
  | conversionComplete raw trip =>
    refine ⟨_, rfl, .inl ?_⟩
    split
    · exact .rfl
    · exact .rfl
    · exact (takeTripRequests_keepsOwnRow s).trans
        ((completeConversion_keepsOwnRow _ raw _).trans (handTripRequest_keepsOwnRow _ trip _))
  | tripRequest c =>
    obtain ⟨v, d, chs, f, frame⟩ := takeTripRequest_frame c s
    exact ⟨_, congrArg Host.Outcome.next frame, .inl ⟨rfl, rfl, id⟩⟩
  | submit => exact ⟨_, rfl, .inl (takeCommand_keepsOwnRow submit_keepsOwnRow 1 s)⟩
  | withdraw => exact ⟨_, rfl, .inl (takeCommand_keepsOwnRow withdraw_keepsOwnRow 2 s)⟩
  | clear => exact ⟨_, rfl, .inl (takeCommand_keepsOwnRow clearTrip_keepsOwnRow 3 s)⟩
  | forget => exact ⟨_, rfl, .inl (takeCommand_keepsOwnRow forget_keepsOwnRow 4 s)⟩
  | park => exact ⟨_, rfl, .inl (takeCommand_keepsOwnRow park_keepsOwnRow 5 s)⟩
  | rejoin => exact ⟨_, rfl, .inl (takeCommand_keepsOwnRow rejoin_keepsOwnRow 6 s)⟩
  | storeWrite | refusedUnknown | writeOperationDone | writeTimeout | supplyLow | storeKey | rawEvents | en
  | registerWrite | readLatch | transactionStart | addressByte | transactionEnd => exact absurd rfl row

/-! ### The own row after every step -/

theorem ownRowAbsent_iff (s : State) : ownRowAbsent s = true ↔
    restsUntilStartUp s = true ∧ Sixteen.get s.peers s.store.station = Row.cleared := by
  simp [ownRowAbsent]

theorem ownRowAbsent_of_atRest {s : State} (h : StillAtRest s) : ownRowAbsent s = true := by
  obtain ⟨phase, store, port, free, queue, -, rfl⟩ := h
  exact (ownRowAbsent_iff _).mpr ⟨restsUntilStartUp_atRest .., Sixteen.get_same Row.cleared store.station⟩

theorem ownRowAbsent_of_running {s : State} (running : s.phase = .running)
    (row : Sixteen.get s.peers s.store.station = Row.cleared) : ownRowAbsent s = true :=
  (ownRowAbsent_iff s).mpr ⟨by simp [restsUntilStartUp, running, Phase.isRunning], row⟩

theorem ownRowAbsent_of_kept {s t : State} (h : ownRowAbsent s = true) (running : s.phase = .running)
    (kept : KeepsOwnRow s t) : ownRowAbsent t = true := by
  obtain ⟨-, row⟩ := (ownRowAbsent_iff s).mp h
  obtain ⟨phase, station, keeps⟩ := kept
  exact ownRowAbsent_of_running (phase.trans running) (by rw [station]; exact keeps row)

/-- The end of start-up finds a table at reset, whichever station number comes into force (R144). -/
theorem endStartUp_ownRow {s : State} (h : StillAtRest s) : ownRowAbsent (endStartUp s) = true := by
  have rest := ownRowAbsent_of_atRest h
  obtain ⟨phase, store, port, free, queue, held, rfl⟩ := h
  cases phase with
  | inReset causes => exact rest
  | running => cases held
  | startUp =>
    unfold endStartUp
    dsimp only [State.atRest]
    split
    · exact ownRowAbsent_of_running rfl (Sixteen.get_same Row.cleared _)
    · exact ownRowAbsent_of_running rfl (Sixteen.get_same Row.cleared _)

/-- A part runs, or rests until start-up ends. -/
theorem running_or_atRest {s : State} (h : ownRowAbsent s = true) : s.phase = .running ∨ StillAtRest s := by
  obtain ⟨rests, -⟩ := (ownRowAbsent_iff s).mp h
  cases phase : s.phase with
  | running => exact .inl rfl
  | inReset causes => exact .inr (stillAtRest_of_rests rests (by rw [phase]; rfl))
  | startUp => exact .inr (stillAtRest_of_rests rests (by rw [phase]; rfl))

theorem exec_keepsOwnRowAbsent (i : Instr) {s : State} (h : ownRowAbsent s = true) :
    ∃ t, exec i s = .next t ∧ ownRowAbsent t = true := by
  rcases running_or_atRest h with running | rest
  · obtain ⟨t, next, kept | rest⟩ := exec_of_running i running
    · exact ⟨t, next, ownRowAbsent_of_kept h running kept⟩
    · exact ⟨t, next, ownRowAbsent_of_atRest rest⟩
  · by_cases last : i = .startUpEnd
    · subst last
      exact ⟨_, rfl, endStartUp_ownRow rest⟩
    · obtain ⟨t, next, still⟩ := exec_atRest last rest
      exact ⟨t, next, ownRowAbsent_of_atRest still⟩

/-- No bit time passes on a line that is not active, so none until start-up ends. -/
theorem passBitTime_keepsOwnRowAbsent {s : State} (h : ownRowAbsent s = true) : ownRowAbsent (passBitTime s) = true := by
  rcases running_or_atRest h with running | rest
  · exact ownRowAbsent_of_kept h running (passBitTime_keepsOwnRow s)
  · have inactive : s.line.receiver = .inactive := by
      obtain ⟨phase, store, port, free, queue, held, rfl⟩ := rest
      rfl
    rw [passBitTime_of_waiting (.inl inactive)]
    exact h

end Sys2Proof.Machine

section
open Sys2Proof Sys2Proof.Machine

/-- Settles O58: until start-up ends by `exec_atRest`, and while the part runs by `exec_of_running`, since no command
writes the row of the own station number. -/
theorem ownRowStaysAbsent : Obligations.OwnRowStaysAbsent := by
  intro s t absent next
  have result : ∃ u, step s = .next u ∧ ownRowAbsent u = true := by
    unfold step
    cases s.pending with
    | nil => exact ⟨_, rfl, passBitTime_keepsOwnRowAbsent absent⟩
    | cons c rest => exact exec_keepsOwnRowAbsent c (s := s.withPending rest) absent
  obtain ⟨u, stepped, kept⟩ := result
  obtain rfl := Host.Outcome.next.inj (stepped.symm.trans next)
  exact kept

end
end

section
/-! PROOFS. A completion that finds an own shed share: the share's bound, the shed target, and the cut (R54, R59, R121,
R122). -/

namespace Sys2Proof.Machine

/-- The own shed share is at most the own surplus (R54). -/
theorem shedOf_share_le {v : Snapshot} {o : OwnRecord} (own : v.own = some o) (station : Station) (capacity : Nat) :
    (shedOf station v capacity).1 ≤ o.body.held - o.body.floor := by
  unfold shedOf
  split
  case isTrue short =>
    rw [shedWalk_shedList, own]
    exact Nat.min_le_left _ _
  case isFalse fits => exact Nat.zero_le _

/-- The shed target is the held value of the own record less the shed share (R59). -/
theorem shedTargetOf_of_share {v : Snapshot} {o : OwnRecord} (own : v.own = some o) {station : Station} {capacity : Nat}
    (share : 0 < (shedOf station v capacity).1) :
    shedTargetOf station v capacity = o.body.held - (shedOf station v capacity).1 := by
  unfold shedTargetOf
  rw [own]
  exact if_pos share

/-- A completion with a share to shed commits nothing, since it finds a shortfall (R54, R72). -/
theorem committedOwner_of_share {s : State} (share : 0 < s.newEngine.shortfall.share) :
    committedOwner s.store.station s.config.capacity s.share = none := by
  by_contra committed
  obtain ⟨owner, h⟩ := Option.ne_none_iff_exists'.mp committed
  obtain ⟨-, -, -, -, noMark, -, -, -⟩ := commits_of_owner h
  exact Bool.false_ne_true (noMark.symm.trans (newEngine_mark_of_share share))

/-- A completion with a share to shed is its results and the cut to the shed target, with SHED where the committed total
was above the target (R59, R122). -/
theorem completed_of_share {s : State} (share : 0 < s.newEngine.shortfall.share) :
    s.completed = raiseIf (decide (s.newEngine.result.shedTarget < committedTotal s.outputs.channels)) .shed
      (onChannels (cutTo s.newEngine.result.shedTarget) s.withResults) := by
  rw [completed_of_noOwner (committedOwner_of_share share), if_pos share, withResults_outputs]

/-- The cut of a shed target falls on the channels as they stood at the completion, and on nothing else of the outputs
(R59, R121). -/
theorem completed_outputs_of_share {s : State} (share : 0 < s.newEngine.shortfall.share) : s.completed.outputs
    = { s.outputs with channels := cutTo s.newEngine.result.shedTarget s.outputs.channels } := by
  rw [completed_of_share share, raiseIf_outputs, onChannels_outputs, withResults_outputs]

/-- A shed target leaves the queue, since its head re-check grants nothing under shortfall (R106, R122). -/
theorem completed_demand_of_share {s : State} (share : 0 < s.newEngine.shortfall.share) :
    s.completed.demand = s.demand := by
  rw [completed_of_share share, raiseIf_demand, onChannels_demand, withResults_demand]

/-- A completion with a share to shed sets SHED exactly where the target is below the committed total (R122). -/
theorem flagSet_shed_of_share {s : State} (share : 0 < s.newEngine.shortfall.share) :
    flagSet .shed s.completed = true ↔
      flagSet .shed s = true ∨ s.newEngine.result.shedTarget < committedTotal s.outputs.channels := by
  have results : flagSet .shed (onChannels (cutTo s.newEngine.result.shedTarget) s.withResults) = flagSet .shed s :=
    calc _ = flagSet .shed s.withResults := rfl
      _ = flagSet .shed s := by simp [flagSet_withResults]
  rw [completed_of_share share, flagSet_raiseIf, results]
  simp

end Sys2Proof.Machine

section
open Sys2Proof Sys2Proof.Machine

/-- Settles O29: the share and the target by `shedOf_share_le` and `shedTargetOf_of_share`; the outputs, the queue and SHED
by the lemmas on a completion with a share to shed, each channel by `cutTo_get_eq`. -/
theorem shedTargetCutsTheCommittedTotal : Obligations.ShedTargetCutsTheCommittedTotal := by
  intro s o flight own share
  have outputs := completed_outputs_of_share (s := s) share
  obtain ⟨l, a, frame⟩ := completeShare_frame flight
  refine ⟨completeShare s, rfl, ?_⟩
  rw [frame]
  refine ⟨shedTargetOf_of_share own share, share, shedOf_share_le own _ _, ?total, ?channels, ?running, ?levels,
    flagSet_shed_of_share share, completed_demand_of_share share⟩
  all_goals simp only [outputs]
  case total => exact committedTotal_cutTo _ _
  case channels => exact cutTo_get_eq _ _
  case levels =>
    intro c
    obtain ⟨lowered, -, applied, -⟩ := cutTo_get s.newEngine.result.shedTarget s.outputs.channels c
    exact ⟨applied, lowered⟩

end
end

section
/-! PROOFS. The ask record: at the build of a CLAIM, at a completion, and the commit that raises the head (R68, R69, R72,
R73, R107). -/

namespace Sys2Proof.Machine

/-! ### The build of a CLAIM (R68, R69) -/

/-- Outside MEMBER, under hold, or with no request, a build carries no ask (R68). -/
theorem askNow_of_barred {s : State}
    (h : s.member.state ≠ .member ∨ s.share.hold = true ∨ s.demand.requests = []) : askNow s = none := by
  unfold askNow
  cases queue : s.demand.requests with
  | nil => rfl
  | cons r rest =>
    refine if_neg ?_
    rintro ⟨member, noHold, -⟩
    rcases h with h | h | h
    · exact h member
    · simp [h] at noHold
    · simp [h] at queue

/-- The head's ask at a build of a MEMBER without hold: the difference by which the needed total passes the announced
one, where it does (R68). -/
theorem askNow_of_head {s : State} {r : Request} {rest : List Request} (member : s.member.state = .member)
    (noHold : s.share.hold = false) (queue : s.demand.requests = r :: rest) :
    askNow s = if max (heldNow s) s.config.floor < neededTotal s.outputs.channels r.channel r.target
      then some (r, neededTotal s.outputs.channels r.channel r.target - max (heldNow s) s.config.floor) else none := by
  unfold askNow
  rw [queue]
  simp only [member, noHold, true_and]

theorem askRecordNow_of_none {s : State} (h : askNow s = none) : askRecordNow s = s.share.ask.empty := by
  unfold askRecordNow
  rw [h]

/-- The record is kept with the same owner and amount, and is else begun anew with the next tag (R69). -/
theorem askRecordNow_of_some {s : State} {r : Request} {amount : Nat} (h : askNow s = some (r, amount)) :
    askRecordNow s = if s.share.ask.state ≠ .none ∧ s.share.ask.owner = some { arrival := r.arrival, channel := r.channel }
        ∧ s.share.ask.amount = amount
      then s.share.ask
      else { state := .waiting, tag := s.share.ask.tag + 1, amount := amount, priority := r.priority
             owner := some { arrival := r.arrival, channel := r.channel }, grantedBefore := false } := by
  unfold askRecordNow
  rw [h]

/-! ### The own ask decision (R72) -/

theorem decideAsk_of_none (fits completed agreement : Bool) {a : AskRecord} (h : a.state = .none) :
    (decideAsk fits completed agreement a).1 = a := by
  simp [decideAsk, h]

/-- A second grant, with the own CLAIM completed and the views agreed, empties the record (R72, R73). -/
theorem decideAsk_of_second {completed agreement : Bool} {a : AskRecord} (standing : a.state ≠ .none)
    (second : a.grantedBefore = true ∧ completed = true ∧ agreement = true) :
    decideAsk true completed agreement a = (a.empty, true) := by
  obtain ⟨before, rfl, rfl⟩ := second
  simp [decideAsk, standing, before]

theorem decideAsk_of_first {completed agreement : Bool} {a : AskRecord} (standing : a.state ≠ .none)
    (first : ¬(a.grantedBefore = true ∧ completed = true ∧ agreement = true)) :
    (decideAsk true completed agreement a).1 = { a with state := .tentative, grantedBefore := true } := by
  have notAll : ¬(a.grantedBefore && completed && agreement) = true := by simpa [and_assoc] using first
  rw [decideAsk, if_neg standing, if_pos rfl, if_neg notAll]

theorem decideAsk_of_refused (completed agreement : Bool) {a : AskRecord} (standing : a.state ≠ .none) :
    (decideAsk false completed agreement a).1 = { a with state := .waiting, grantedBefore := false } := by
  simp [decideAsk, standing]

/-- The grant that the decision of a completion takes: one that matches the record, with hold and shortfall clear
(R72). -/
def State.grantFits (s : State) : Bool :=
  grantMatches s.newEngine.result.granted (ownAsk s.share.snapshot.own) s.share.ask
    && !s.newEngine.hold && !s.newEngine.shortfall.mark

theorem grantFits_iff (s : State) : s.grantFits = true ↔ ∃ o a, s.share.snapshot.own = some o ∧ o.body.ask = some a
    ∧ s.newEngine.result.granted = true ∧ a.tag = s.share.ask.tag ∧ a.amount = s.share.ask.amount
    ∧ s.newEngine.hold = false ∧ s.newEngine.shortfall.mark = false := by
  unfold State.grantFits
  rw [Bool.and_eq_true, Bool.and_eq_true, Bool.not_eq_true', Bool.not_eq_true', grantMatches_iff]
  constructor
  · rintro ⟨⟨⟨granted, a, carried, tag, amount⟩, hold⟩, mark⟩
    obtain ⟨o, own, ask⟩ := (ownAsk_eq_some _ _).mp carried
    exact ⟨o, a, own, ask, granted, tag, amount, hold, mark⟩
  · rintro ⟨o, a, own, ask, granted, tag, amount, hold, mark⟩
    exact ⟨⟨⟨granted, a, (ownAsk_eq_some _ _).mpr ⟨o, own, ask⟩, tag, amount⟩, hold⟩, mark⟩

/-- The ask record that a completion leaves is the decision's (R72). -/
theorem newEngine_ask (s : State) : s.newEngine.ask
    = (decideAsk s.grantFits s.share.snapshot.ownCompleted s.newEngine.result.agreement s.share.ask).1 := rfl

/-- The commit notice goes to the record's owner where the decision commits (R73). -/
theorem committedOwner_eq (s : State) : committedOwner s.store.station s.config.capacity s.share
    = if (decideAsk s.grantFits s.share.snapshot.ownCompleted s.newEngine.result.agreement s.share.ask).2 = true
      then s.share.ask.owner else none := rfl

/-! ### A completion, with and without its held expiry (R12, R46) -/

/-- The state without its held deferral expiry. -/
def State.withoutExpiry (s : State) : State := { s with line := { s.line with deferralExpired := false } }

theorem takeCommitNotice_withoutExpiry (owner : Owner) (s : State) :
    takeCommitNotice owner s.withoutExpiry = (takeCommitNotice owner s).withoutExpiry := by
  have queue : s.withoutExpiry.demand.requests = s.demand.requests := rfl
  unfold takeCommitNotice
  rw [queue]
  cases s.demand.requests with
  | nil => rfl
  | cons r rest =>
    dsimp only
    split
    · rfl
    · rfl

theorem raiseIf_withoutExpiry (c : Bool) (e : Event) (s : State) :
    raiseIf c e s.withoutExpiry = (raiseIf c e s).withoutExpiry := by
  cases c <;> rfl

theorem withResults_withoutExpiry (s : State) : s.withoutExpiry.withResults = s.withResults.withoutExpiry := by
  unfold State.withResults
  rw [← raiseIf_withoutExpiry, ← raiseIf_withoutExpiry]
  rfl

/-- The results, the commit and the shed target do not look at a held expiry. -/
theorem completed_withoutExpiry (s : State) : s.withoutExpiry.completed = s.completed.withoutExpiry := by
  have results := withResults_withoutExpiry s
  cases owned : committedOwner s.store.station s.config.capacity s.share with
  | some owner =>
    rw [completed_of_owner owned, completed_of_owner (s := s.withoutExpiry) owned, results,
      takeCommitNotice_withoutExpiry]
  | none =>
    rw [completed_of_noOwner owned, completed_of_noOwner (s := s.withoutExpiry) owned, results]
    by_cases above : 0 < s.newEngine.shortfall.share
    · rw [if_pos above]
      exact (if_pos above).trans (raiseIf_withoutExpiry _ .shed (onChannels _ s.withResults))
    · rw [if_neg above]
      exact if_neg above

/-- A completion's parts, but for what a commit or a cut can change, leave what decides an attempt. -/
theorem completed_attempt (s : State) : s.completed.line = s.line ∧ s.completed.member = s.member
    ∧ s.completed.share = s.newEngine := by
  obtain ⟨n, d, chs, f, frame⟩ := completed_frame s
  rw [frame]
  exact ⟨rfl, rfl, rfl⟩

/-- A completion that finds a held expiry, with a frame due on an idle line, begins the attempt (R12, R168). -/
theorem completeShare_begins {s : State} (flight : s.share.flight.isSome = true)
    (expired : s.line.deferralExpired = true) (idle : s.line.idle = true) (due : frameDue s = true)
    (transmitter : s.line.transmitter = .idle) (came : s.member.state ≠ .joining ∨ s.line.awaitsExpiry = false) :
    completeShare s = beginAttempt s.completed := by
  obtain ⟨line, member, share⟩ := completed_attempt s
  have due' : frameDue s.completed = true := by
    unfold frameDue
    rw [line, member]
    exact due
  rw [completeShare_eq flight, tryHeldAttempt_of_expired (by rw [line, member]; exact came)]
  exact tryAttempt_begins (by rw [line]; exact expired) (by rw [line]; exact idle) due'
    (by rw [line]; exact transmitter) (by rw [share]; rfl)

/-- A completion begins no attempt where one of its conditions fails (R10 to R12). -/
theorem completeShare_waits {s : State} (flight : s.share.flight.isSome = true)
    (h : (s.member.state = .joining ∧ s.line.awaitsExpiry = true) ∨ s.line.deferralExpired = false
      ∨ s.line.idle = false ∨ frameDue s = false ∨ s.line.transmitter ≠ .idle) : completeShare s = s.completed := by
  obtain ⟨line, member, share⟩ := completed_attempt s
  have due : frameDue s.completed = frameDue s := by
    unfold frameDue
    rw [line, member]
  rw [completeShare_eq flight]
  unfold tryHeldAttempt
  split
  case isTrue => rfl
  case isFalse notAwaiting =>
    apply tryAttempt_waits
    rw [due, line]
    rcases h with awaits | h | h | h | h
    · rw [line, member] at notAwaiting
      exact absurd awaits notAwaiting
    · exact .inl h
    · exact .inr (.inl h)
    · exact .inr (.inr (.inl h))
    · exact .inr (.inr (.inr (.inl h)))

end Sys2Proof.Machine
end

section
open Sys2Proof Sys2Proof.Machine

/-- Settles O32: the attempt builds a CLAIM, and its record is `askRecordNow`, by what `askNow` finds. -/
theorem claimBuildAlignsTheAskRecord : Obligations.ClaimBuildAlignsTheAskRecord := by
  intro s idle first state unsent attempts transmitter flight claim
  have due : frameDue s = true := (frameDue_iff s).mpr ⟨state, unsent, attempts⟩
  have claims : ¬leaveDue s = true := fun h => claim ((leaveDue_iff s).mp h)
  refine ⟨_, congrArg Host.Outcome.next (expireDeferral_begins idle first due transmitter flight), ?_⟩
  dsimp only
  rw [if_neg claims]
  refine ⟨fun barred => askRecordNow_of_none (askNow_of_barred barred), fun member noHold r rest queue => ?_⟩
  have ask := askNow_of_head member noHold queue
  refine ⟨fun enough => askRecordNow_of_none (ask.trans (if_neg (Nat.not_lt.mpr enough))), fun more => ?_⟩
  have record := askRecordNow_of_some (ask.trans (if_pos more))
  refine ⟨fun ⟨standing, amount, owner⟩ => record.trans (if_pos ⟨standing, owner, amount⟩), fun other => ?_⟩
  exact record.trans (if_neg fun ⟨standing, owner, amount⟩ => other ⟨standing, amount, owner⟩)

end

section
open Sys2Proof Sys2Proof.Machine

/-- Settles O28: the decision commits to the record's owner, and `takeCommitNotice` tells the head from every other
request. -/
theorem commitRaisesTheHeadGated : Obligations.CommitRaisesTheHeadGated := by
  intro s o a w flight standing owner before completed own carried tag amount granted noHold agreement
  obtain ⟨fits, -⟩ := (ownGranted_iff _ _ _).mp granted
  have noMark : s.newEngine.shortfall.mark = false := decide_eq_false (Nat.not_lt.mpr fits)
  have grantFits : s.grantFits = true :=
    (grantFits_iff s).mpr ⟨o, a, own, carried, granted, tag, amount, noHold, noMark⟩
  have second := decideAsk_of_second standing ⟨before, completed, agreement⟩
  have commits : committedOwner s.store.station s.config.capacity s.share = some w := by
    rw [committedOwner_eq, grantFits]
    exact (if_pos (congrArg Prod.snd second)).trans owner
  have parts := completed_of_owner commits
  obtain ⟨l, b, frame⟩ := completeShare_frame flight
  refine ⟨fun r rest queue head => ⟨completeShare s, rfl, ?_⟩, fun other => ⟨completeShare s, rfl, ?_⟩⟩
  · have taken : takeCommitNotice w s.withResults = writeResult r.channel r.tag .granted
        (onChannel r.channel (Channel.commit r.target r.priority) (setRequests rest s.withResults)) := by
      unfold takeCommitNotice
      rw [withResults_demand, queue]
      exact if_pos head
    rw [frame, parts, taken]
    simp [withResults_outputs, withResults_demand, Channel.commit, flagSet, Event.getLsbD_mask]
  · have dropped : takeCommitNotice w s.withResults = s.withResults := by
      unfold takeCommitNotice
      rw [withResults_demand]
      cases queue : s.demand.requests with
      | nil => rfl
      | cons r rest => exact if_neg (other r (by rw [queue]; rfl))
    refine ⟨?_, ?_, ?_, fun unexpired => ?_⟩
    · rw [frame, parts, dropped]
      exact withResults_outputs s
    · rw [frame, parts, dropped]
      exact withResults_demand s
    · rw [frame, parts, dropped]
      exact (flagSet_withResults .result s).trans (by simp)
    · obtain ⟨-, -, share⟩ := completed_attempt s
      rw [completeShare_waits flight (.inr (.inl unexpired)), share, newEngine_ask, grantFits]
      exact congrArg (fun d => d.1.state) second

/-- Settles O27: the record by the cases of `decideAsk`; a completion with a held expiry by whether it begins the
attempt. -/
theorem ownAskDecisionMovesTheAskRecord : Obligations.OwnAskDecisionMovesTheAskRecord := by
  refine ⟨?_, ?_⟩
  · intro s flight unexpired
    obtain ⟨-, -, share⟩ := completed_attempt s
    refine ⟨completeShare s, rfl, ?_⟩
    rw [completeShare_waits flight (.inr (.inl unexpired)), share, newEngine_ask]
    dsimp only
    rw [← grantFits_iff]
    refine ⟨decideAsk_of_none _ _ _, fun standing fits second => ?_, fun standing fits first => ?_,
      fun standing refused => ?_⟩
    · rw [fits, decideAsk_of_second standing second]
      rfl
    · rw [fits, decideAsk_of_first standing first]
    · rw [Bool.eq_false_of_not_eq_true refused, decideAsk_of_refused _ _ standing]
  · intro s flight
    have without : completeShare s.withoutExpiry = s.completed.withoutExpiry :=
      (completeShare_waits (s := s.withoutExpiry) flight (.inr (.inl rfl))).trans (completed_withoutExpiry s)
    obtain ⟨line, member, share⟩ := completed_attempt s
    refine ⟨completeShare s, s.completed.withoutExpiry, rfl, congrArg Host.Outcome.next without, ?_, ?_⟩
    · rintro ⟨expired, came, idle, state, unsent, attempts, transmitter⟩
      have due : frameDue s = true := (frameDue_iff s).mpr ⟨state, unsent, attempts⟩
      have due' : frameDue s.completed.withoutExpiry = true := by
        unfold frameDue State.withoutExpiry
        rw [line, member]
        exact due
      have begun := completeShare_begins flight expired idle due transmitter (by
        rw [← Bool.not_eq_true]
        exact Decidable.not_and_iff_not_or_not.mp came)
      rw [begun, beginAttempt_eq, exec_deferralExpiry, execDeferralExpiry]
      rw [expireDeferral_begins (s := s.completed.withoutExpiry) (by rw [State.withoutExpiry, line]; exact idle) rfl due'
        (by rw [State.withoutExpiry, line]; exact transmitter) (by rw [State.withoutExpiry, share]; rfl)]
      rfl
    · intro h
      have waits : completeShare s = s.completed := by
        apply completeShare_waits flight
        by_contra all
        simp only [not_or, Bool.not_eq_false, not_not] at all
        obtain ⟨came, expired, idle, due, transmitter⟩ := all
        obtain ⟨state, unsent, attempts⟩ := (frameDue_iff s).mp due
        exact h ⟨expired, came, idle, state, unsent, attempts, transmitter⟩
      rw [waits]
      unfold State.withoutExpiry
      rw [← line]

end

section
/-! PROOFS. The counts that a round close moves, and the station state, the queue and the event flags that they lead to
(R83 to R92, R99, R106, R108). -/

namespace Sys2Proof.Machine

/-! ### Counts and ages below their limits (R83, R86, R88, R108) -/

/-- The count that the station state uses is below its limit. -/
def CountsBelow (k : Configuration) (m : Membership) : Prop :=
  (m.state = .listen → m.listenCount ≤ k.lease) ∧ (m.state = .joining → m.joinCount < 2)
    ∧ (m.state = .member → m.isolationCount < k.isolation)

/-- No queued request has reached the age limit. -/
def AgesBelow (limit : Nat) (rs : List Request) : Prop := ∀ r ∈ rs, limit = 0 ∨ r.age < limit

theorem noExpiryWaits_iff (s : State) : noExpiryWaits s = true ↔
    CountsBelow s.config s.member ∧ AgesBelow s.config.askLimit s.demand.requests := by
  refine ⟨fun h => ⟨noExpiryWaits_counts h, noExpiryWaits_requests h⟩, ?_⟩
  rintro ⟨⟨listen, joining, member⟩, ages⟩
  refine Bool.and_eq_true_iff.mpr ⟨?_, by simpa [AgesBelow] using ages⟩
  cases state : s.member.state with
  | listen => exact decide_eq_true (listen state)
  | joining => exact decide_eq_true (joining state)
  | member => exact decide_eq_true (member state)
  | start | isolated | parking | parked | fault => rfl

theorem takeListenExpiry_of_below {s : State} (h : CountsBelow s.config s.member) : takeListenExpiry s = s := by
  obtain ⟨listen, -, -⟩ := h
  exact if_neg fun ⟨state, reached⟩ => absurd (listen state) (Nat.not_le.mpr reached)

theorem takeJoinExpiry_of_below {s : State} (h : CountsBelow s.config s.member) : takeJoinExpiry s = s := by
  obtain ⟨-, joining, -⟩ := h
  exact if_neg fun ⟨state, reached⟩ => absurd (joining state) (Nat.not_lt.mpr reached)

theorem takeIsolationExpiry_of_below {s : State} (h : CountsBelow s.config s.member) : takeIsolationExpiry s = s := by
  obtain ⟨-, -, member⟩ := h
  exact if_neg fun ⟨state, reached⟩ => absurd (member state) (Nat.not_lt.mpr reached)

theorem takeMemberExpiries_of_below {s : State} (h : CountsBelow s.config s.member) : takeMemberExpiries s = s := by
  rw [takeMemberExpiries, takeIsolationExpiry_of_below h, takeJoinExpiry_of_below h, takeListenExpiry_of_below h]

/-- With the count below its limit a close finds nothing left but an expired head. -/
theorem takeLeftExpiries_of_below {s : State} (h : CountsBelow s.config s.member) : takeLeftExpiries s = expireHead s := by
  obtain ⟨d, f, frame⟩ := expireHead_frame s
  exact takeMemberExpiries_of_below (s := expireHead s) (by rw [frame]; exact h)

/-- A head below the limit stays, whatever stands behind it (R108). -/
theorem expireHead_of_head {s : State}
    (h : ∀ r, s.demand.requests.head? = some r → s.config.askLimit = 0 ∨ r.age < s.config.askLimit) :
    expireHead s = s := by
  cases queue : s.demand.requests with
  | nil => exact expireHead_of_noRequests queue
  | cons r rest =>
    have below := h r (by rw [queue]; rfl)
    rw [expireHead_cons queue, if_neg (by omega)]

/-! ### The counts, by the station state (R83, R85, R88, R92) -/

section Check
variable {s : State} (view : Sixteen Row)

theorem membershipCheck_of_listen (h : s.member.state = .listen) : membershipCheck view s
    = { s with member := { s.member with listenCount := s.member.listenCount + 1 } } := by
  rw [membershipCheck, h]

theorem membershipCheck_of_joining (h : s.member.state = .joining) : membershipCheck view s
    = { s with member := { s.member with
        joinCount := nextJoinCount s.store.station (Sixteen.toList view) s.member.joinCount } } := by
  rw [membershipCheck, h]

theorem membershipCheck_of_member (h : s.member.state = .member) : membershipCheck view s
    = { s with member := { s.member with
        isolationCount := nextIsolationCount s.store.station (Sixteen.toList view) s.member.isolationCount } } := by
  rw [membershipCheck, h]

theorem membershipCheck_of_isolated (h : s.member.state = .isolated) :
    membershipCheck view s = if tableEmpty view = true then enterMember s else s := by
  rw [membershipCheck, h]

theorem membershipCheck_of_other (h : s.member.state = .start ∨ s.member.state = .parking
    ∨ s.member.state = .parked ∨ s.member.state = .fault) : membershipCheck view s = s := by
  rcases h with h | h | h | h <;> rw [membershipCheck, h]

end Check

/-- When a round view lets the join count advance (R85). -/
def JoinCounts (station : Station) (view : Sixteen Row) : Prop :=
  (∀ n, (Sixteen.get view n).takesPart = false)
    ∨ ((∃ n, (Sixteen.get view n).takesPart = true ∧ (Sixteen.get view n).received = true)
      ∧ ∀ n, (Sixteen.get view n).takesPart = true → (Sixteen.get view n).received = true →
        (Sixteen.get view n).heard.getLsbD station.toNat = true)

/-- When a round view lets the isolation count advance: there are stations, and none confirms (R88). -/
def Unheard (station : Station) (view : Sixteen Row) : Prop :=
  (∃ n, (Sixteen.get view n).state = .live ∨ (Sixteen.get view n).state = .silent)
    ∧ ¬∃ n, (Sixteen.get view n).takesPart = true ∧ (Sixteen.get view n).received = true
        ∧ (Sixteen.get view n).heard.getLsbD station.toNat = true

theorem nextJoinCount_of_counts {station : Station} {view : Sixteen Row} (h : JoinCounts station view) (count : Nat) :
    nextJoinCount station (Sixteen.toList view) count = count + 1 := by
  unfold nextJoinCount
  rcases h with none | ⟨⟨n, part, heard⟩, all⟩
  · rw [if_pos]
    simpa [List.all_eq_true, Sixteen.mem_toList] using none
  · split
    · rfl
    · rw [if_pos]
      simp only [Bool.and_eq_true, List.any_eq_true, List.all_eq_true, Sixteen.mem_toList]
      refine ⟨⟨_, ⟨n, rfl⟩, part, heard⟩, ?_⟩
      rintro _ ⟨m, rfl⟩
      have confirms := all m
      simp only [Bool.or_eq_true, Bool.not_eq_true', Bool.and_eq_false_iff, names]
      by_cases p : (Sixteen.get view m).takesPart = true
      · by_cases q : (Sixteen.get view m).received = true
        · exact .inr (confirms p q)
        · exact .inl (.inr (by simpa using q))
      · exact .inl (.inl (by simpa using p))

theorem nextJoinCount_of_not_counts {station : Station} {view : Sixteen Row} (h : ¬JoinCounts station view)
    (count : Nat) : nextJoinCount station (Sixteen.toList view) count = 0 := by
  unfold nextJoinCount
  rw [if_neg, if_neg]
  · intro all
    simp only [Bool.and_eq_true, List.any_eq_true, List.all_eq_true, Sixteen.mem_toList] at all
    obtain ⟨⟨_, ⟨n, rfl⟩, part, heard⟩, confirm⟩ := all
    refine h (.inr ⟨⟨n, part, heard⟩, fun m p q => ?_⟩)
    have named := confirm _ ⟨m, rfl⟩
    simpa [p, q, names] using named
  · intro none
    refine h (.inl fun n => ?_)
    simp only [List.all_eq_true, Sixteen.mem_toList] at none
    simpa using none _ ⟨n, rfl⟩

theorem unheard_iff (station : Station) (view : Sixteen Row) : Unheard station view ↔
    ((Sixteen.toList view).any (fun r => decide (r.state = .live) || decide (r.state = .silent))
      && !(Sixteen.toList view).any (Row.confirms station)) = true := by
  simp [Unheard, List.any_eq_true, Sixteen.mem_toList, Row.confirms, names, and_assoc]

theorem nextIsolationCount_of_unheard {station : Station} {view : Sixteen Row} (h : Unheard station view) (count : Nat) :
    nextIsolationCount station (Sixteen.toList view) count = count + 1 := if_pos ((unheard_iff station view).mp h)

theorem nextIsolationCount_of_heard {station : Station} {view : Sixteen Row} (h : ¬Unheard station view) (count : Nat) :
    nextIsolationCount station (Sixteen.toList view) count = 0 := if_neg ((unheard_iff station view).not.mp h)

/-- The isolation count advances or returns to 0. -/
theorem nextIsolationCount_cases (station : Station) (view : Sixteen Row) (count : Nat) :
    nextIsolationCount station (Sixteen.toList view) count = 0
      ∨ nextIsolationCount station (Sixteen.toList view) count = count + 1 := by
  by_cases h : Unheard station view
  · exact .inr (nextIsolationCount_of_unheard h count)
  · exact .inl (nextIsolationCount_of_heard h count)

/-- The join count advances or returns to 0. -/
theorem nextJoinCount_cases (station : Station) (view : Sixteen Row) (count : Nat) :
    nextJoinCount station (Sixteen.toList view) count = 0
      ∨ nextJoinCount station (Sixteen.toList view) count = count + 1 := by
  by_cases h : JoinCounts station view
  · exact .inr (nextJoinCount_of_counts h count)
  · exact .inl (nextJoinCount_of_not_counts h count)

/-! ### The membership controller at a close, by the station state (R83 to R92) -/

section Close
variable {s : State} (view : Sixteen Row)

theorem memberClose_of_listen (h : s.member.state = .listen) : memberClose view s
    = takeListenExpiry { s with member := { s.member with listenCount := s.member.listenCount + 1 } } := by
  rw [memberClose, membershipCheck_of_listen view h]
  exact takeMemberExpiries_of_listen h

theorem memberClose_of_joining (h : s.member.state = .joining) : memberClose view s
    = takeJoinExpiry { s with member := { s.member with
        joinCount := nextJoinCount s.store.station (Sixteen.toList view) s.member.joinCount } } := by
  rw [memberClose, membershipCheck_of_joining view h]
  exact takeMemberExpiries_of_joining h

theorem memberClose_of_member (h : s.member.state = .member) : memberClose view s
    = takeIsolationExpiry { s with member := { s.member with
        isolationCount := nextIsolationCount s.store.station (Sixteen.toList view) s.member.isolationCount } } := by
  rw [memberClose, membershipCheck_of_member view h]
  exact takeMemberExpiries_of_member h

theorem memberClose_of_other (h : s.member.state = .start ∨ s.member.state = .parking ∨ s.member.state = .parked
    ∨ s.member.state = .fault) : memberClose view s = s := by
  have others : s.member.state ≠ .listen ∧ s.member.state ≠ .joining ∧ s.member.state ≠ .member := by
    rcases h with h | h | h | h <;> simp [h]
  obtain ⟨listen, joining, member⟩ := others
  rw [memberClose, membershipCheck_of_other view h, takeMemberExpiries_of_other listen joining member]

/-- An ISOLATED station whose view is empty enters MEMBER, and its isolation count of 0 is below the limit. -/
theorem memberClose_of_isolated (h : s.member.state = .isolated) (isolation : 0 < s.config.isolation) :
    memberClose view s = if tableEmpty view = true then enterMember s else s := by
  rw [memberClose, membershipCheck_of_isolated view h]
  split
  · obtain ⟨d, chs, f, frame⟩ := enterMember_frame s
    exact takeMemberExpiries_of_below (by rw [frame]; exact ⟨by simp, by simp, fun _ => isolation⟩)
  · exact takeMemberExpiries_of_below (by simp [CountsBelow, h])

end Close

/-- A close leaves the count of the station state, the new one included, below its limit. -/
theorem memberClose_countsBelow (view : Sixteen Row) {s : State} (h : CountsBelow s.config s.member)
    (isolation : 0 < s.config.isolation) : CountsBelow (memberClose view s).config (memberClose view s).member := by
  obtain ⟨listen, joining, member⟩ := h
  cases state : s.member.state with
  | listen =>
    rw [memberClose_of_listen view state, takeListenExpiry]
    split
    case isTrue => exact ⟨by simp [enterJoining], by simp [enterJoining], by simp [enterJoining]⟩
    case isFalse below =>
      have le : s.member.listenCount + 1 ≤ s.config.lease := by
        by_contra above
        exact below ⟨state, by dsimp only; omega⟩
      exact ⟨fun _ => le, by simp [state], by simp [state]⟩
  | joining =>
    rw [memberClose_of_joining view state, takeJoinExpiry]
    split
    case isTrue =>
      obtain ⟨d, chs, f, frame⟩ := enterMember_frame { s with member := { s.member with
        joinCount := nextJoinCount s.store.station (Sixteen.toList view) s.member.joinCount } }
      rw [frame]
      exact ⟨by simp, by simp, fun _ => isolation⟩
    case isFalse below =>
      exact ⟨by simp [state], fun _ => Nat.not_le.mp fun reached => below ⟨state, reached⟩, by simp [state]⟩
  | member =>
    rw [memberClose_of_member view state, takeIsolationExpiry]
    split
    case isTrue =>
      obtain ⟨d, chs, f, frame⟩ := enterIsolated_frame { s with member := { s.member with
        isolationCount := nextIsolationCount s.store.station (Sixteen.toList view) s.member.isolationCount } }
      rw [frame]
      exact ⟨by simp, by simp, by simp⟩
    case isFalse below =>
      exact ⟨by simp [state], by simp [state], fun _ => Nat.not_le.mp fun reached => below ⟨state, reached⟩⟩
  | isolated =>
    rw [memberClose_of_isolated view state isolation]
    split
    · obtain ⟨d, chs, f, frame⟩ := enterMember_frame s
      rw [frame]
      exact ⟨by simp, by simp, fun _ => isolation⟩
    · simp [CountsBelow, state]
  | start | parking | parked | fault =>
    rw [memberClose_of_other view (by simp [state])]
    exact ⟨listen, joining, member⟩

/-- MEMBERSHIP is set exactly by a change of the station state (R99). -/
def MembershipTracks (s t : State) : Prop :=
  flagSet .membership t = (flagSet .membership s || decide (t.member.state ≠ s.member.state))

theorem MembershipTracks.of_same {s t : State} (state : t.member.state = s.member.state)
    (flag : flagSet .membership t = flagSet .membership s) : MembershipTracks s t := by
  simp [MembershipTracks, state, flag]

theorem enterMember_membershipTracks {s : State} {m : Membership} (other : s.member.state ≠ .member) :
    MembershipTracks s (enterMember { s with member := m }) := by
  have flag := flagSet_enterMember (e := .membership) (by decide) { s with member := m }
  rw [MembershipTracks, flag, enterMember_member]
  simp [other.symm]

theorem memberClose_membershipTracks (view : Sixteen Row) {s : State} (isolation : 0 < s.config.isolation) :
    MembershipTracks s (memberClose view s) := by
  cases state : s.member.state with
  | listen =>
    rw [memberClose_of_listen view state, takeListenExpiry]
    split
    · have flag : flagSet .membership (enterJoining
          { s with member := { s.member with listenCount := s.member.listenCount + 1 } })
          = (flagSet .membership s || decide (Event.membership = .membership)) := flagSet_raise _ _ _
      rw [MembershipTracks, flag]
      simp [enterJoining, state]
    · exact .of_same rfl rfl
  | joining =>
    rw [memberClose_of_joining view state, takeJoinExpiry]
    split
    · exact enterMember_membershipTracks (by simp [state])
    · exact .of_same rfl rfl
  | member =>
    rw [memberClose_of_member view state, takeIsolationExpiry]
    split
    · rw [MembershipTracks, flagSet_enterIsolated, enterIsolated_member]
      simp [state]
    · exact .of_same rfl rfl
  | isolated =>
    rw [memberClose_of_isolated view state isolation]
    split
    · exact enterMember_membershipTracks (m := s.member) (by simp [state])
    · exact .of_same rfl rfl
  | start | parking | parked | fault =>
    rw [memberClose_of_other view (by simp [state])]
    exact .of_same rfl rfl

end Sys2Proof.Machine
end

section
/-! PROOFS. A close as a whole: its counts, its queue, and the age of the head (R83 to R92, R106, R108). -/

namespace Sys2Proof.Machine

/-! ### The queue at a close (R106, R108) -/

theorem AgesBelow.of_suffix {limit : Nat} {rs qs : List Request} (h : AgesBelow limit rs) (sub : qs <:+ rs) :
    AgesBelow limit qs := fun r mem => h r (sub.subset mem)

/-- The membership controller takes requests only from the front of the queue (R106). -/
theorem MemberClosed.requests_suffix {s t : State} (h : MemberClosed s t) :
    t.demand.requests <:+ s.demand.requests := by
  cases h with
  | stays m j same => simp
  | isolates m was counted => simp [enterIsolated_eq]
  | enters m was =>
    obtain ⟨granted, kept, queue, result, -, -⟩ :=
      headRecheck_grants (enter .member { s with member := { m with isolationCount := 0 } })
    have queue' : s.demand.requests = granted ++ kept := queue
    have left : (enterMember { s with member := m }).demand.requests = kept :=
      congrArg (fun t => t.demand.requests) result
    rw [left, queue']
    exact List.suffix_append granted kept

/-- The queue after the head has aged, and expired at the limit, is below the limit again (R108). -/
theorem demandClose_agesBelow {s : State} (h : AgesBelow s.config.askLimit s.demand.requests) :
    AgesBelow s.config.askLimit (demandClose s).demand.requests := by
  by_cases member : s.member.state = .member
  · cases queue : s.demand.requests with
    | nil =>
      rw [demandClose_of_noRequests queue]
      exact h
    | cons r rest =>
      have others : AgesBelow s.config.askLimit rest := h.of_suffix (by rw [queue]; exact List.suffix_cons r rest)
      rw [demandClose_of_member member rfl queue]
      split
      case isTrue below => exact List.forall_mem_cons.mpr ⟨below, others⟩
      case isFalse => exact others
  · rw [demandClose_of_not_member member h]
    exact h

/-- A head re-check whose head does not fit grants nothing (R106). -/
theorem headRecheck_of_unfit {s : State}
    (h : ∀ r rest, s.demand.requests = r :: rest → fitsLocally s r.channel r.target = false) : headRecheck s = s := by
  unfold headRecheck
  cases queue : s.demand.requests with
  | nil => rfl
  | cons r rest => simp [recheckHeads, queue, h r rest queue]

/-- Where a close does not enter MEMBER with a head that fits, it leaves the queue and the last results. -/
theorem MemberClosed.demand {s t : State} (h : MemberClosed s t)
    (unfit : s.member.state ≠ .member → t.member.state = .member → ∀ r rest, s.demand.requests = r :: rest →
      announcedBound s < neededTotal s.outputs.channels r.channel r.target) : t.demand = s.demand := by
  cases h with
  | stays m j same => simp
  | isolates m was counted => simp [enterIsolated_eq]
  | enters m was =>
    have stays : enterMember { s with member := m } = enter .member { s with member := { m with isolationCount := 0 } } := by
      apply headRecheck_of_unfit
      intro r rest queue
      have above := unfit was (by rw [enterMember_member]) r rest queue
      refine decide_eq_false ?_
      rintro ⟨-, -, -, fits⟩
      exact absurd fits (Nat.not_le.mpr above)
    rw [stays]
    rfl

/-- The age that a close gives the head (R108). -/
def closeAge (ages : Prop) [Decidable ages] (r : Request) : Nat := if ages then min (r.age + 1) 255 else r.age

/-- The head ages in MEMBER alone; it stays below the limit, and is removed with EXPIRED at it (R108). -/
theorem demandClose_demand {s : State} {r : Request} {rest : List Request} (queue : s.demand.requests = r :: rest)
    (below : AgesBelow s.config.askLimit s.demand.requests) :
    (s.config.askLimit = 0 ∨ closeAge (s.member.state = .member) r < s.config.askLimit →
        (demandClose s).demand = { s.demand with
          requests := { r with age := closeAge (s.member.state = .member) r } :: rest })
      ∧ (0 < s.config.askLimit → s.config.askLimit ≤ closeAge (s.member.state = .member) r →
        (demandClose s).demand = { s.demand with
          requests := rest
          lastResults := s.demand.lastResults.set r.channel { tag := r.tag, code := .expired } }) := by
  unfold closeAge
  by_cases member : s.member.state = .member
  · rw [demandClose_of_member member rfl queue, if_pos member]
    refine ⟨fun stays => ?_, fun positive reached => ?_⟩
    · rw [if_pos stays]
      rfl
    · rw [if_neg (by omega)]
      rfl
  · have head := below r (by simp [queue])
    rw [demandClose_of_not_member member below, if_neg member]
    refine ⟨fun _ => ?_, fun positive reached => ?_⟩
    · rw [← queue]
    · omega

/-! ### The close, in every order -/

theorem DemandMoved.trans {s t u : State} (h : DemandMoved s t) (h' : DemandMoved t u) : DemandMoved s u := by
  obtain ⟨⟨d, f, frame⟩, flags, tracks⟩ := h
  obtain ⟨⟨d', f', frame'⟩, flags', tracks'⟩ := h'
  exact ⟨⟨d', f', by rw [frame', frame]⟩, flags.trans flags', tracks.trans tracks'⟩

theorem expireHead_moved (s : State) : DemandMoved s (expireHead s) :=
  ⟨expireHead_frame s, expireHead_keepsFlags s, expireHead_resultTracks s⟩

/-- What a moved queue leaves. -/
theorem demandMoved_kept {s t : State} (h : DemandMoved s t) : t.member = s.member ∧ t.outputs = s.outputs
    ∧ t.share = s.share ∧ t.config = s.config ∧ t.store = s.store
    ∧ flagSet .membership t = flagSet .membership s := by
  obtain ⟨⟨d, f, frame⟩, flags, -⟩ := h
  have membership := flags .membership (by decide)
  rw [frame] at membership ⊢
  exact ⟨rfl, rfl, rfl, rfl, rfl, membership⟩

theorem tableClosed_kept (s : State) : s.tableClosed.member = s.member ∧ s.tableClosed.outputs = s.outputs
    ∧ s.tableClosed.share = startComputation (roundView s) s.share ∧ s.tableClosed.config = s.config
    ∧ s.tableClosed.store = s.store ∧ s.tableClosed.demand = s.demand ∧ s.tableClosed.pending = s.pending := by
  rw [tableClosed_eq]
  exact ⟨rfl, rfl, rfl, rfl, rfl, rfl, rfl⟩

theorem tableClosed_raise (e : Event) (s : State) : (raise e s).tableClosed = raise e s.tableClosed := by
  have same : agingShows (raise e s).config.lease (raise e s).config.retire (raise e s).peers
      = agingShows s.config.lease s.config.retire s.peers := rfl
  rw [tableClosed_eq, tableClosed_eq, same]
  cases agingShows s.config.lease s.config.retire s.peers
  · rfl
  · simp only [if_true, raise, BitVec.or_assoc, BitVec.or_comm e.mask]
    rfl

theorem tableClosed_withDemand (s : State) (d : DemandQueue) :
    ({ s with demand := d } : State).tableClosed = { s.tableClosed with demand := d } := by
  rw [tableClosed_eq, tableClosed_eq]
  rfl

/-- The table closes the same whether a head left at its limit expires before or after. -/
theorem tableClosed_expireHead (s : State) : (expireHead s).tableClosed = expireHead s.tableClosed := by
  obtain ⟨-, -, -, config, -, demand, -⟩ := tableClosed_kept s
  cases queue : s.demand.requests with
  | nil => rw [expireHead_of_noRequests queue, expireHead_of_noRequests (by rw [demand, queue])]
  | cons r rest =>
    rw [expireHead_cons queue, expireHead_cons (s := s.tableClosed) (by rw [demand]; exact queue), config]
    split
    · unfold writeResult
      rw [tableClosed_raise, tableClosed_withDemand, setRequests, tableClosed_withDemand, setRequests, demand]
    · rfl

/-- A close whose count is below its limit: the queue moves, the controller closes, the queue moves. -/
theorem closeRound_of_countsBelow {order : CloseOrder} {s : State} (idle : s.line.idle = true)
    (below : CountsBelow s.config s.member) (leaves : order = .apart → leavesNoExpiry s.pending = true) :
    ∃ x, DemandMoved s.tableClosed x ∧ DemandMoved (memberClose (roundView s) x) (closeRound order s) := by
  have start : closeTable (onLine LineInterface.closeRound (takeLeftExpiries s)) = expireHead s.tableClosed := by
    rw [takeLeftExpiries_of_below below, ← tableClosed_expireHead]
    rfl
  have expired := expireHead_moved s.tableClosed
  rw [closeRound_eq order idle, start]
  cases order with
  | stateFirst => exact ⟨_, expired, demandClose_moved _⟩
  | ageFirst => exact ⟨_, expired.trans (demandClose_moved _), .rfl⟩
  | apart =>
    have pending : (expireHead s.tableClosed).pending = s.pending := by
      obtain ⟨d, f, frame⟩ := expireHead_frame s.tableClosed
      rw [frame, tableClosed_eq]
    rw [closeCounts_apart (s := expireHead s.tableClosed) _ (pending ▸ leaves rfl)]
    exact ⟨_, expired.trans (demandClose_moved _), .rfl⟩

/-- The rows of a close's snapshot are the round view (R34, R43). -/
theorem closeRound_view (order : CloseOrder) {s : State} (idle : s.line.idle = true) (n : Station) :
    Sixteen.get (closeRound order s).share.snapshot.rows n = Sixteen.get (roundView s) n := by
  rw [closeRound_snapshot order idle, roundView, Sixteen.get_map]

theorem memberClose_noExpiryWaits (view : Sixteen Row) {s : State} (quiet : noExpiryWaits s = true)
    (isolation : 0 < s.config.isolation) : noExpiryWaits (memberClose view s) = true := by
  obtain ⟨counts, ages⟩ := (noExpiryWaits_iff s).mp quiet
  obtain ⟨m, a, d, chs, f, frame⟩ := memberClose_frame view s
  have config : (memberClose view s).config = s.config := by rw [frame]
  refine (noExpiryWaits_iff _).mpr ⟨memberClose_countsBelow view counts isolation, ?_⟩
  rw [config]
  exact ages.of_suffix (memberClose_closed view isolation).requests_suffix

theorem demandClose_noExpiryWaits {s : State} (quiet : noExpiryWaits s = true) :
    noExpiryWaits (demandClose s) = true := by
  obtain ⟨counts, ages⟩ := (noExpiryWaits_iff s).mp quiet
  obtain ⟨member, -, -, config, -, -⟩ := demandMoved_kept (demandClose_moved s)
  rw [noExpiryWaits_iff, member, config]
  exact ⟨counts, demandClose_agesBelow ages⟩

theorem tableClosed_noExpiryWaits {s : State} (quiet : noExpiryWaits s = true) :
    noExpiryWaits s.tableClosed = true := by
  obtain ⟨member, -, -, config, -, demand, -⟩ := tableClosed_kept s
  rw [noExpiryWaits_iff, member, config, demand]
  exact (noExpiryWaits_iff s).mp quiet

/-- After a close no expiry waits (log 3). -/
theorem closeRound_noExpiryWaits {order : CloseOrder} {s : State} (idle : s.line.idle = true)
    (quiet : noExpiryWaits s = true) (isolation : 0 < s.config.isolation)
    (leaves : order = .apart → leavesNoExpiry s.pending = true) : noExpiryWaits (closeRound order s) = true := by
  obtain ⟨-, -, -, config, -, -, -⟩ := tableClosed_kept s
  obtain ⟨-, -, -, config', -, -⟩ := demandMoved_kept (demandClose_moved s.tableClosed)
  have table := tableClosed_noExpiryWaits quiet
  rw [closeRound_quiet idle quiet leaves]
  split
  · exact demandClose_noExpiryWaits (memberClose_noExpiryWaits _ table (config ▸ isolation))
  · exact memberClose_noExpiryWaits _ (demandClose_noExpiryWaits table) (by rw [config', config]; exact isolation)

/-- The bound that a station has announced is the same after the close of the table. -/
theorem announcedBound_tableClosed (s : State) : announcedBound s.tableClosed = announcedBound s := by
  have record : recordBound s.tableClosed.share.own = recordBound s.share.own := by
    rw [tableClosed_eq]
    unfold startComputation
    cases s.share.own with
    | none => rfl
    | some o => rfl
  have line : s.tableClosed.line = s.line.closeRound := by rw [tableClosed_eq]
  unfold announcedBound
  rw [record, line]
  rfl

/-- The queue after a close that does not enter MEMBER with a head that fits is as the head's aging leaves it: in MEMBER
before the close, or with the state taken first after it (R108). -/
theorem closeRound_demand {order : CloseOrder} {s : State} (idle : s.line.idle = true) (quiet : noExpiryWaits s = true)
    (isolation : 0 < s.config.isolation) (leaves : order = .apart → leavesNoExpiry s.pending = true)
    (unfit : s.member.state ≠ .member → (closeRound order s).member.state = .member → ∀ r rest,
      s.demand.requests = r :: rest → announcedBound s < neededTotal s.outputs.channels r.channel r.target) :
    ∃ y, y.demand = s.demand ∧ y.config = s.config
      ∧ (y.member.state = .member ↔
          if order = .stateFirst then (closeRound order s).member.state = .member else s.member.state = .member)
      ∧ (closeRound order s).demand = (demandClose y).demand := by
  obtain ⟨member, outputs, -, config, -, demand, -⟩ := tableClosed_kept s
  have closed := memberClose_closed (roundView s) (s := s.tableClosed) (config ▸ isolation)
  have parts := closeRound_quiet idle quiet leaves
  by_cases first : order = .stateFirst
  · rw [if_pos first] at parts ⊢
    obtain ⟨moved, -, -, -, -, -⟩ := demandMoved_kept (demandClose_moved (memberClose (roundView s) s.tableClosed))
    rw [← parts] at moved
    obtain ⟨m, a, d, chs, f, frame⟩ := memberClose_frame (roundView s) s.tableClosed
    refine ⟨memberClose (roundView s) s.tableClosed, ?_, by rw [frame, config], by rw [moved], by rw [parts]⟩
    rw [closed.demand, demand]
    rw [member, outputs, demand, announcedBound_tableClosed, ← moved]
    exact unfit
  · rw [if_neg first] at parts ⊢
    refine ⟨s.tableClosed, demand, config, by rw [member], ?_⟩
    obtain ⟨sameMember, sameOutputs, -, sameConfig, -, -⟩ := demandMoved_kept (demandClose_moved s.tableClosed)
    have closed' := memberClose_closed (roundView s) (s := demandClose s.tableClosed)
      (by rw [sameConfig, config]; exact isolation)
    rw [parts]
    refine closed'.demand ?_
    intro was is
    rw [sameMember, member] at was
    have still : demandClose s.tableClosed = s.tableClosed :=
      demandClose_of_not_member (member ▸ was) (demand ▸ config ▸ noExpiryWaits_requests quiet)
    rw [still, outputs, demand, announcedBound_tableClosed]
    exact unfit was (by rw [parts]; exact is)

end Sys2Proof.Machine
end

section
/-! PROOFS. A close that leaves an expiry to its own row right behind it (log 3). -/

namespace Sys2Proof.Machine

/-! ### The expiry rows (R83, R86, R89, R108) -/

/-- The row of the expiry that a station state's count reaches. -/
def expiryRowOf : StationState → Option Instr
  | .listen => some .listenCountExpiry
  | .joining => some .joinCountExpiry
  | .member => some .isolationCountExpiry
  | .start | .isolated | .parking | .parked | .fault => none

/-- What an expiry row does. -/
def takeExpiry : Instr → State → State
  | .listenCountExpiry => takeListenExpiry
  | .joinCountExpiry => takeJoinExpiry
  | .isolationCountExpiry => takeIsolationExpiry
  | .askLimitExpiry => expireHead
  | _ => id

theorem exec_expiryRow {row : Instr} (h : isExpiryRow row = true) (s : State) :
    exec row s = .next (takeExpiry row s) := by
  cases row with
  | listenCountExpiry | joinCountExpiry | isolationCountExpiry | askLimitExpiry => rfl
  | _ => cases h

/-- An expiry row does nothing where no expiry waits. -/
theorem takeExpiry_of_noExpiry (row : Instr) {s : State} (quiet : noExpiryWaits s = true) : takeExpiry row s = s := by
  obtain ⟨counts, ages⟩ := (noExpiryWaits_iff s).mp quiet
  cases row with
  | listenCountExpiry => exact takeListenExpiry_of_below counts
  | joinCountExpiry => exact takeJoinExpiry_of_below counts
  | isolationCountExpiry => exact takeIsolationExpiry_of_below counts
  | askLimitExpiry => exact expireHead_of_below ages
  | _ => rfl

/-- The controller's expiries are the one of the row of the station state. -/
theorem takeMemberExpiries_eq_takeExpiry {s : State} {row : Instr} (own : expiryRowOf s.member.state = some row) :
    takeMemberExpiries s = takeExpiry row s := by
  cases state : s.member.state with
  | listen =>
    obtain rfl := Option.some.inj ((congrArg expiryRowOf state).symm.trans own)
    exact takeMemberExpiries_of_listen state
  | joining =>
    obtain rfl := Option.some.inj ((congrArg expiryRowOf state).symm.trans own)
    exact takeMemberExpiries_of_joining state
  | member =>
    obtain rfl := Option.some.inj ((congrArg expiryRowOf state).symm.trans own)
    exact takeMemberExpiries_of_member state
  | start | isolated | parking | parked | fault => simp [state, expiryRowOf] at own

/-! ### Expiries left to a row that stands next -/

theorem unlessNext_of_same {row : Instr} {take : State → State} {s : State} (h : take s = s) :
    unlessNext row take s = s := by
  rcases unlessNext_cases row take s with left | taken
  · exact left
  · exact taken.trans h

theorem unlessNext_of_next {row : Instr} {s : State} (take : State → State) (h : standsNext row s = true) :
    unlessNext row take s = s := if_pos h

theorem unlessNext_of_not_next {row : Instr} {s : State} (take : State → State) (h : standsNext row s = false) :
    unlessNext row take s = take s := if_neg (Bool.eq_false_iff.mp h)

theorem standsNext_congr (row : Instr) {s t : State} (h : t.pending = s.pending) :
    standsNext row t = standsNext row s := by
  unfold standsNext
  rw [h]

/-- The controller's expiries are left exactly where the row of the station state stands next. -/
theorem takeMemberExpiriesNotNext_eq (s : State) : takeMemberExpiriesNotNext s
    = if (expiryRowOf s.member.state).any (fun row => standsNext row s) = true then s else takeMemberExpiries s := by
  unfold takeMemberExpiriesNotNext
  cases state : s.member.state with
  | listen =>
    rw [unlessNext_of_same (takeIsolationExpiry_of_state (by simp [state])),
      unlessNext_of_same (takeJoinExpiry_of_state (by simp [state])), takeMemberExpiries_of_listen state]
    rfl
  | joining =>
    rw [unlessNext_of_same (takeIsolationExpiry_of_state (by simp [state])), takeMemberExpiries_of_joining state,
      unlessNext_of_same (takeListenExpiry_of_state ?_)]
    · rfl
    · rcases unlessNext_cases .joinCountExpiry takeJoinExpiry s with left | taken
      · simp [left, state]
      · rw [taken, takeJoinExpiry]
        split
        · simp [enterMember_member]
        · simp [state]
  | member =>
    have entered : (unlessNext .isolationCountExpiry takeIsolationExpiry s).member.state = .isolated
        ∨ (unlessNext .isolationCountExpiry takeIsolationExpiry s).member.state = .member := by
      rcases unlessNext_cases .isolationCountExpiry takeIsolationExpiry s with left | taken
      · simp [left, state]
      · rw [taken, takeIsolationExpiry]
        split
        · simp [enterIsolated_member]
        · simp [state]
    rw [takeMemberExpiries_of_member state, unlessNext_of_same (row := .joinCountExpiry) (takeJoinExpiry_of_state ?_),
      unlessNext_of_same (takeListenExpiry_of_state ?_)]
    · rfl
    all_goals rcases entered with state | state <;> simp [state]
  | start | isolated | parking | parked | fault =>
    rw [unlessNext_of_same (takeIsolationExpiry_of_state (by simp [state])),
      unlessNext_of_same (takeJoinExpiry_of_state (by simp [state])),
      unlessNext_of_same (takeListenExpiry_of_state (by simp [state])),
      takeMemberExpiries_of_other (by simp [state]) (by simp [state]) (by simp [state])]
    rfl

/-- An expiry row in front of a queue stands next, besides those that stand next behind it. -/
theorem standsNext_cons {s : State} {row : Instr} {rest : List Instr} (expiry : isExpiryRow row = true)
    (pending : s.pending = row :: rest) (other : Instr) :
    standsNext other s = (decide (other = row) || standsNext other (s.withPending rest)) := by
  unfold standsNext
  rw [pending, withPending_pending, List.takeWhile_cons_of_pos expiry, List.dropWhile_cons_of_pos expiry,
    List.contains_cons, Bool.or_assoc]
  rfl

/-- Where an expiry row stands alone behind the close, it is the only one that stands next. -/
theorem standsNext_alone {s : State} {row : Instr} {rest : List Instr} (expiry : isExpiryRow row = true)
    (pending : s.pending = row :: rest) (leaves : leavesNoExpiry rest = true) (other : Instr) :
    standsNext other s = decide (other = row) := by
  have none := standsNext_of_leavesNoExpiry other (s.withPending rest) leaves
  rw [standsNext_cons expiry pending, none, Bool.or_false]

/-! ### The close in the order `apart` -/

/-- The queue at a close in the order `apart`: the head ages, and expires unless its row stands next (R108). -/
def demandCloseApart (s : State) : State := unlessNext .askLimitExpiry expireHead (ageHead s)

theorem ageHead_moved (s : State) : DemandMoved s (ageHead s) := by
  obtain ⟨d, frame⟩ := ageHead_frame s
  exact ⟨⟨d, s.port.flags, frame⟩, ageHead_keepsFlags s, ageHead_resultTracks s⟩

theorem demandCloseApart_moved (s : State) : DemandMoved s (demandCloseApart s) := by
  unfold demandCloseApart
  rcases unlessNext_cases .askLimitExpiry expireHead (ageHead s) with left | taken
  · rw [left]
    exact ageHead_moved s
  · rw [taken]
    exact demandClose_moved s

/-- The controller closes in the order `apart`, but for an expiry whose row stands next. -/
theorem closeRound_apart {s : State} (idle : s.line.idle = true) (left : takeLeftExpiries s = s) : closeRound .apart s
    = if (expiryRowOf (membershipCheck (roundView s) (demandCloseApart s.tableClosed)).member.state).any
        (fun row => standsNext row (membershipCheck (roundView s) (demandCloseApart s.tableClosed))) = true
      then membershipCheck (roundView s) (demandCloseApart s.tableClosed)
      else memberClose (roundView s) (demandCloseApart s.tableClosed) := by
  rw [closeRound_eq .apart idle, left]
  exact takeMemberExpiriesNotNext_eq _

theorem membershipCheck_demandCloseApart_pending (s : State) :
    (membershipCheck (roundView s) (demandCloseApart s.tableClosed)).pending = s.pending := by
  obtain ⟨⟨d, f, moved⟩, -, -⟩ := demandCloseApart_moved s.tableClosed
  obtain ⟨m, d', chs, f', checked⟩ := membershipCheck_frame (roundView s) (demandCloseApart s.tableClosed)
  rw [checked, moved, tableClosed_eq]

/-- In a state that uses a count, the check moves that count alone. -/
theorem membershipCheck_state (view : Sixteen Row) {s : State} {row : Instr}
    (own : expiryRowOf s.member.state = some row) : (membershipCheck view s).member.state = s.member.state := by
  cases state : s.member.state with
  | listen => rw [membershipCheck_of_listen view state]; exact state
  | joining => rw [membershipCheck_of_joining view state]; exact state
  | member => rw [membershipCheck_of_member view state]; exact state
  | start | isolated | parking | parked | fault => simp [state, expiryRowOf] at own

/-- A close that finds nothing left, with the row of its count standing next, moves the count and the queue alone. -/
theorem closeRound_leaves_count {s : State} {row : Instr} (idle : s.line.idle = true) (left : takeLeftExpiries s = s)
    (own : expiryRowOf s.member.state = some row) (next : standsNext row s = true) :
    closeRound .apart s = membershipCheck (roundView s) (demandCloseApart s.tableClosed) := by
  obtain ⟨member, -⟩ := demandMoved_kept (demandCloseApart_moved s.tableClosed)
  obtain ⟨member', -⟩ := tableClosed_kept s
  have own' : expiryRowOf (demandCloseApart s.tableClosed).member.state = some row := by
    rw [member, member']
    exact own
  have next' := standsNext_congr row (membershipCheck_demandCloseApart_pending s)
  rw [closeRound_apart idle left, membershipCheck_state _ own', own', Option.any_some, next', next, if_pos rfl]

/-- Outside MEMBER a head below the limit neither ages nor expires. -/
theorem demandCloseApart_of_not_member {s : State} (state : s.member.state ≠ .member)
    (head : ∀ r, s.demand.requests.head? = some r → s.config.askLimit = 0 ∨ r.age < s.config.askLimit) :
    demandCloseApart s = s := by
  have unaged : ageHead s = s := if_neg state
  rw [demandCloseApart, unaged, unlessNext_of_same (expireHead_of_head head)]

/-- The queue with its head one close older (R108). -/
def withHeadAged : List Request → List Request
  | [] => []
  | r :: rest => { r with age := min (r.age + 1) 255 } :: rest

theorem ageHead_of_member {s : State} (member : s.member.state = .member) :
    (ageHead s).demand = { s.demand with requests := withHeadAged s.demand.requests } := by
  unfold ageHead
  rw [if_pos member]
  cases queue : s.demand.requests with
  | nil =>
    dsimp only [withHeadAged]
    rw [← queue]
  | cons r rest => rfl

/-! ### An expiry row right behind the close -/

theorem enterIsolated_raise (e : Event) (s : State) : enterIsolated (raise e s) = raise e (enterIsolated s) := by
  have same : decide ((raise e s).config.floor < committedTotal (raise e s).outputs.channels)
      = decide (s.config.floor < committedTotal s.outputs.channels) := rfl
  rw [enterIsolated_eq, enterIsolated_eq, same]
  cases decide (s.config.floor < committedTotal s.outputs.channels)
  · simp [raiseIf, raise, enter, emptyAsk, setAsk, onChannels, BitVec.or_assoc, BitVec.or_comm e.mask]
  · simp [raiseIf, raise, enter, emptyAsk, setAsk, onChannels, BitVec.or_assoc, BitVec.or_comm e.mask]

theorem enterIsolated_withQueue (s : State) (d : DemandQueue) :
    enterIsolated { s with demand := d } = { enterIsolated s with demand := d } := by
  rw [enterIsolated_eq, enterIsolated_eq]
  dsimp only
  cases decide (s.config.floor < committedTotal s.outputs.channels)
  · rfl
  · rfl

/-- The entry to ISOLATED and the expiry of the head do not meet: either may come first (R75, R89, R108). -/
theorem expireHead_enterIsolated (s : State) : expireHead (enterIsolated s) = enterIsolated (expireHead s) := by
  obtain ⟨demand, config⟩ : (enterIsolated s).demand = s.demand ∧ (enterIsolated s).config = s.config := by
    simp [enterIsolated_eq]
  cases queue : s.demand.requests with
  | nil => rw [expireHead_of_noRequests queue, expireHead_of_noRequests (by rw [demand, queue])]
  | cons r rest =>
    rw [expireHead_cons queue, expireHead_cons (s := enterIsolated s) (by rw [demand]; exact queue), config]
    split
    · calc writeResult r.channel r.tag .expired (setRequests rest (enterIsolated s))
          = raise .result { enterIsolated s with demand := { s.demand with
              requests := rest, lastResults := s.demand.lastResults.set r.channel { tag := r.tag, code := .expired } } } := by
            simp only [writeResult, setRequests, demand]
        _ = enterIsolated (writeResult r.channel r.tag .expired (setRequests rest s)) := by
            rw [← enterIsolated_withQueue, ← enterIsolated_raise]
            rfl
    · rfl

theorem expireHead_takeIsolationExpiry (s : State) :
    expireHead (takeIsolationExpiry s) = takeIsolationExpiry (expireHead s) := by
  obtain ⟨d, f, frame⟩ := expireHead_frame s
  have same : ((expireHead s).member.state = .member ∧ (expireHead s).config.isolation ≤ (expireHead s).member.isolationCount)
      = (s.member.state = .member ∧ s.config.isolation ≤ s.member.isolationCount) := by rw [frame]
  unfold takeIsolationExpiry
  simp only [same]
  split
  · exact expireHead_enterIsolated s
  · rfl

theorem expireHead_withCounts (s : State) (m : Membership) :
    expireHead { s with member := m } = { expireHead s with member := m } := by
  cases queue : s.demand.requests with
  | nil => rw [expireHead_of_noRequests queue, expireHead_of_noRequests (s := { s with member := m }) queue]
  | cons r rest =>
    rw [expireHead_cons queue, expireHead_cons (s := { s with member := m }) queue]
    dsimp only
    split
    · rfl
    · rfl

/-- In MEMBER the head may expire before or after the controller closes. -/
theorem expireHead_memberClose (view : Sixteen Row) {s : State} (member : s.member.state = .member) :
    expireHead (memberClose view s) = memberClose view (expireHead s) := by
  obtain ⟨d, f, frame⟩ := expireHead_frame s
  rw [memberClose_of_member view member, memberClose_of_member view (s := expireHead s) (by rw [frame]; exact member),
    expireHead_takeIsolationExpiry, expireHead_withCounts, frame]

/-- The head's own row behind a close that only aged it: the close with the expiry in it (R108). -/
theorem expireHead_memberClose_ageHead {s : State} (quiet : noExpiryWaits s = true) (isolation : 0 < s.config.isolation)
    (view : Sixteen Row) : expireHead (memberClose view (ageHead s)) = memberClose view (demandClose s) := by
  by_cases member : s.member.state = .member
  · obtain ⟨same, -⟩ := demandMoved_kept (ageHead_moved s)
    exact expireHead_memberClose view (by rw [same]; exact member)
  · obtain ⟨-, ages⟩ := (noExpiryWaits_iff s).mp quiet
    have unaged : ageHead s = s := if_neg member
    rw [unaged, demandClose_of_not_member member ages]
    exact expireHead_of_below (noExpiryWaits_requests (memberClose_noExpiryWaits view quiet isolation))

/-- A close with an expiry row alone behind it, and then that row, is the close that takes the expiry itself (log 3). -/
theorem takeExpiry_closeRound_apart {s : State} {row : Instr} {rest : List Instr} (idle : s.line.idle = true)
    (quiet : noExpiryWaits s = true) (isolation : 0 < s.config.isolation) (expiry : isExpiryRow row = true)
    (pending : s.pending = row :: rest) (leaves : leavesNoExpiry rest = true) :
    takeExpiry row (closeRound .apart s) = closeRound .ageFirst s := by
  have alone := standsNext_alone expiry pending leaves
  obtain ⟨-, -, -, config, -, -, tablePending⟩ := tableClosed_kept s
  have after := closeRound_noExpiryWaits (order := .ageFirst) idle quiet isolation (by simp)
  have ageFirst : closeRound .ageFirst s = memberClose (roundView s) (demandClose s.tableClosed) :=
    (closeRound_quiet idle quiet (by simp)).trans (if_neg (by simp))
  have apart := closeRound_apart idle (takeLeftExpiries_of_noExpiry quiet)
  have agedPending : (ageHead s.tableClosed).pending = s.pending := by
    obtain ⟨d, frame⟩ := ageHead_frame s.tableClosed
    rw [frame, tablePending]
  have headNext := (standsNext_congr .askLimitExpiry agedPending).trans (alone .askLimitExpiry)
  have nexts : ∀ other, standsNext other (membershipCheck (roundView s) (demandCloseApart s.tableClosed))
      = decide (other = row) :=
    fun other => (standsNext_congr other (membershipCheck_demandCloseApart_pending s)).trans (alone other)
  simp only [nexts] at apart
  by_cases head : row = .askLimitExpiry
  · subst head
    have aged : demandCloseApart s.tableClosed = ageHead s.tableClosed := unlessNext_of_next _ (headNext.trans (by simp))
    have noRow : (expiryRowOf (membershipCheck (roundView s) (demandCloseApart s.tableClosed)).member.state).any
        (fun other => decide (other = Instr.askLimitExpiry)) = false := by
      cases (membershipCheck (roundView s) (demandCloseApart s.tableClosed)).member.state <;> rfl
    rw [noRow, if_neg (by simp), aged] at apart
    rw [apart, ageFirst, takeExpiry]
    exact expireHead_memberClose_ageHead (tableClosed_noExpiryWaits quiet) (config ▸ isolation) _
  · have closed : demandCloseApart s.tableClosed = demandClose s.tableClosed :=
      unlessNext_of_not_next _ (headNext.trans (decide_eq_false fun same => head same.symm))
    rw [closed] at apart
    split at apart
    case isTrue own =>
      have ownRow : expiryRowOf (membershipCheck (roundView s) (demandClose s.tableClosed)).member.state = some row := by
        cases is : expiryRowOf (membershipCheck (roundView s) (demandClose s.tableClosed)).member.state with
        | none => simp [is] at own
        | some other => simpa [is] using own
      rw [apart, ← takeMemberExpiries_eq_takeExpiry ownRow, ageFirst]
      rfl
    case isFalse =>
      have taken : closeRound .apart s = closeRound .ageFirst s := apart.trans ageFirst.symm
      rw [taken]
      exact takeExpiry_of_noExpiry row after

end Sys2Proof.Machine
end

section
/-! PROOFS. A round close in the terms of the state before it: each clause of what it does to the station. -/

namespace Sys2Proof.Machine

/-! ### The membership record after each expiry (R84, R86, R89) -/

theorem takeListenExpiry_member (s : State) : (takeListenExpiry s).member
    = if s.member.state = .listen ∧ s.config.lease + 1 ≤ s.member.listenCount
      then { s.member with state := .joining, joinCount := 0 } else s.member := by
  unfold takeListenExpiry
  split
  · rfl
  · rfl

theorem takeJoinExpiry_member (s : State) : (takeJoinExpiry s).member
    = if s.member.state = .joining ∧ 2 ≤ s.member.joinCount
      then { s.member with state := .member, isolationCount := 0 } else s.member := by
  unfold takeJoinExpiry
  split
  · exact enterMember_member s
  · rfl

theorem takeIsolationExpiry_member (s : State) : (takeIsolationExpiry s).member
    = if s.member.state = .member ∧ s.config.isolation ≤ s.member.isolationCount
      then { s.member with state := .isolated } else s.member := by
  unfold takeIsolationExpiry
  split
  · exact enterIsolated_member s
  · rfl

theorem takeIsolationExpiry_of_reached {s : State} (state : s.member.state = .member)
    (reached : s.config.isolation ≤ s.member.isolationCount) : takeIsolationExpiry s = enterIsolated s :=
  if_pos ⟨state, reached⟩

/-! ### What a close does by the state it finds -/

/-- What a close takes to the controller of the state before it, and what the controller decides of the state after
it. -/
theorem closeRound_closes {order : CloseOrder} {s : State} (idle : s.line.idle = true)
    (below : CountsBelow s.config s.member) (leaves : order = .apart → leavesNoExpiry s.pending = true) :
    ∃ x, x.member = s.member ∧ x.config = s.config ∧ x.store = s.store
      ∧ flagSet .membership x = flagSet .membership s
      ∧ (closeRound order s).member = (memberClose (roundView s) x).member
      ∧ (closeRound order s).outputs = (memberClose (roundView s) x).outputs
      ∧ (closeRound order s).share = (memberClose (roundView s) x).share
      ∧ flagSet .membership (closeRound order s) = flagSet .membership (memberClose (roundView s) x) := by
  obtain ⟨x, before, after⟩ := closeRound_of_countsBelow idle below leaves
  obtain ⟨member, -, -, config, store, flag⟩ := demandMoved_kept before
  obtain ⟨member', -, -, config', store', -, -⟩ := tableClosed_kept s
  obtain ⟨closedMember, closedOutputs, closedShare, -, -, closedFlag⟩ := demandMoved_kept after
  exact ⟨x, member.trans member', config.trans config', store.trans store',
    flag.trans (flagSet_tableClosed (by decide) s), closedMember, closedOutputs, closedShare, closedFlag⟩

section Clauses
variable {order : CloseOrder} {s : State} (idle : s.line.idle = true)
  (leaves : order = .apart → leavesNoExpiry s.pending = true)
include idle leaves

/-- In LISTEN the count advances, and JOINING is entered at L + 1 (R83, R84). -/
theorem closeRound_of_listen (state : s.member.state = .listen) (below : s.member.listenCount ≤ s.config.lease) :
    (closeRound order s).member = if s.member.listenCount = s.config.lease
      then { s.member with state := .joining, listenCount := s.config.lease + 1, joinCount := 0 }
      else { s.member with listenCount := s.member.listenCount + 1 } := by
  obtain ⟨x, member, config, -, -, closed, -, -, -⟩ := closeRound_closes idle
    ⟨fun _ => below, by simp [state], by simp [state]⟩ leaves
  rw [closed, memberClose_of_listen _ (by rw [member]; exact state), takeListenExpiry_member]
  dsimp only
  rw [member, config]
  by_cases last : s.member.listenCount = s.config.lease
  · rw [if_pos ⟨state, by omega⟩, if_pos last, last]
  · rw [if_neg (by omega), if_neg last]

/-- In JOINING the count advances or returns to 0, and MEMBER is entered at 2 (R85, R86). -/
theorem closeRound_of_joining (state : s.member.state = .joining) (below : s.member.joinCount < 2) :
    (JoinCounts s.store.station (roundView s) → s.member.joinCount = 0 →
        (closeRound order s).member = { s.member with joinCount := 1 })
      ∧ (JoinCounts s.store.station (roundView s) → s.member.joinCount = 1 →
        (closeRound order s).member = { s.member with state := .member, joinCount := 2, isolationCount := 0 })
      ∧ (¬JoinCounts s.store.station (roundView s) →
        (closeRound order s).member = { s.member with joinCount := 0 }) := by
  obtain ⟨x, member, config, store, -, closed, -, -, -⟩ := closeRound_closes idle
    ⟨by simp [state], fun _ => below, by simp [state]⟩ leaves
  rw [memberClose_of_joining _ (by rw [member]; exact state), takeJoinExpiry_member] at closed
  dsimp only at closed
  rw [member, store] at closed
  refine ⟨fun counts first => ?_, fun counts second => ?_, fun not => ?_⟩
  · rw [nextJoinCount_of_counts counts, first, if_neg (by omega)] at closed
    exact closed
  · rw [nextJoinCount_of_counts counts, second, if_pos ⟨state, by omega⟩] at closed
    exact closed
  · rw [nextJoinCount_of_not_counts not, if_neg (by omega)] at closed
    exact closed

/-- In MEMBER the count advances or returns to 0, and ISOLATED is entered at I, with the cut to the floor and no ask (R75,
R88, R89, R123). -/
theorem closeRound_of_member (state : s.member.state = .member)
    (below : s.member.isolationCount < s.config.isolation) :
    (¬Unheard s.store.station (roundView s) → (closeRound order s).member = { s.member with isolationCount := 0 })
      ∧ (Unheard s.store.station (roundView s) → s.member.isolationCount + 1 < s.config.isolation →
        (closeRound order s).member = { s.member with isolationCount := s.member.isolationCount + 1 })
      ∧ (Unheard s.store.station (roundView s) → s.member.isolationCount + 1 = s.config.isolation →
        (closeRound order s).member = { s.member with state := .isolated, isolationCount := s.config.isolation }
        ∧ committedTotal (closeRound order s).outputs.channels ≤ s.config.floor
        ∧ (closeRound order s).share.ask.state = .none) := by
  obtain ⟨x, member, config, store, -, closed, outputs, share, -⟩ := closeRound_closes idle
    ⟨by simp [state], by simp [state], fun _ => below⟩ leaves
  rw [memberClose_of_member _ (by rw [member]; exact state)] at closed outputs share
  rw [takeIsolationExpiry_member] at closed
  dsimp only at closed
  rw [member, store, config] at closed
  refine ⟨fun heard => ?_, fun unheard short => ?_, fun unheard last => ?_⟩
  · rw [nextIsolationCount_of_heard heard, if_neg (by omega)] at closed
    exact closed
  · rw [nextIsolationCount_of_unheard unheard, if_neg (by omega)] at closed
    exact closed
  · rw [nextIsolationCount_of_unheard unheard, if_pos ⟨state, by omega⟩, last] at closed
    rw [outputs, share, takeIsolationExpiry_of_reached (by dsimp only; rw [member]; exact state)
      (by dsimp only; rw [member, store, config, nextIsolationCount_of_unheard unheard]; omega), enterIsolated_eq]
    refine ⟨closed, ?_, by simp [AskRecord.empty]⟩
    simp [committedTotal_cutTo, config]

/-- In ISOLATED an empty view leads back to MEMBER (R92). -/
theorem closeRound_of_isolated (state : s.member.state = .isolated) (isolation : 0 < s.config.isolation) :
    (tableEmpty (roundView s) = true →
        (closeRound order s).member = { s.member with state := .member, isolationCount := 0 })
      ∧ (¬tableEmpty (roundView s) = true → (closeRound order s).member = s.member) := by
  obtain ⟨x, member, config, -, -, closed, -, -, -⟩ := closeRound_closes idle
    ⟨by simp [state], by simp [state], by simp [state]⟩ leaves
  rw [memberClose_of_isolated _ (by rw [member]; exact state) (by rw [config]; exact isolation)] at closed
  refine ⟨fun empty => ?_, fun listed => ?_⟩
  · rw [closed, if_pos empty, enterMember_member, member]
  · rw [closed, if_neg listed, member]

/-- Every other state uses no count. -/
theorem closeRound_of_other (state : s.member.state = .start ∨ s.member.state = .parking ∨ s.member.state = .parked
    ∨ s.member.state = .fault) : (closeRound order s).member = s.member := by
  have below : CountsBelow s.config s.member := by
    rcases state with state | state | state | state <;> simp [CountsBelow, state]
  obtain ⟨x, member, -, -, -, closed, -, -, -⟩ := closeRound_closes idle below leaves
  rw [closed, memberClose_of_other _ (by rw [member]; exact state), member]

/-- MEMBERSHIP is set exactly by a change of the station state (R99). -/
theorem closeRound_membership (quiet : noExpiryWaits s = true) (isolation : 0 < s.config.isolation) :
    MembershipTracks s (closeRound order s) := by
  obtain ⟨below, -⟩ := (noExpiryWaits_iff s).mp quiet
  obtain ⟨x, member, config, -, flag, closed, -, -, closedFlag⟩ := closeRound_closes idle below leaves
  have tracks := memberClose_membershipTracks (roundView s) (s := x) (by rw [config]; exact isolation)
  unfold MembershipTracks at tracks ⊢
  rw [closedFlag, closed, tracks, flag, member]

end Clauses

theorem closeRound_resultTracks {order : CloseOrder} {s : State} (idle : s.line.idle = true)
    (quiet : noExpiryWaits s = true) (isolation : 0 < s.config.isolation)
    (leaves : order = .apart → leavesNoExpiry s.pending = true) : ResultTracks s (closeRound order s) := by
  obtain ⟨x, y, ⟨-, -, before⟩, closed, ⟨-, -, after⟩⟩ := closeRound_parts idle quiet isolation leaves
  exact (tableClosed_resultTracks s).trans (before.trans (closed.resultTracks.trans after))

/-- The head of the queue at a close that does not enter MEMBER with a head that fits (R108). -/
theorem closeRound_head {order : CloseOrder} {s : State} {r : Request} {rest : List Request} (idle : s.line.idle = true)
    (quiet : noExpiryWaits s = true) (isolation : 0 < s.config.isolation)
    (leaves : order = .apart → leavesNoExpiry s.pending = true) (queue : s.demand.requests = r :: rest)
    (unfit : s.member.state ≠ .member → (closeRound order s).member.state = .member →
      announcedBound s < neededTotal s.outputs.channels r.channel r.target) :
    let age := closeAge
      (if order = .stateFirst then (closeRound order s).member.state = .member else s.member.state = .member) r
    (s.config.askLimit = 0 ∨ age < s.config.askLimit →
        (closeRound order s).demand = { s.demand with requests := { r with age := age } :: rest })
      ∧ (0 < s.config.askLimit → s.config.askLimit ≤ age →
        (closeRound order s).demand = { s.demand with
          requests := rest
          lastResults := s.demand.lastResults.set r.channel { tag := r.tag, code := .expired } }
        ∧ flagSet .result (closeRound order s) = true) := by
  have head : ∀ r' rest', s.demand.requests = r' :: rest' → r = r' := fun r' rest' again =>
    (List.cons.inj (queue.symm.trans again)).1
  obtain ⟨y, demand, config, ages, closed⟩ := closeRound_demand idle quiet isolation leaves
    (fun was is r' rest' again => head r' rest' again ▸ unfit was is)
  obtain ⟨stays, expires⟩ := demandClose_demand (s := y) (by rw [demand]; exact queue)
    (by rw [demand, config]; exact noExpiryWaits_requests quiet)
  obtain ⟨-, result⟩ := closeRound_resultTracks idle quiet isolation leaves
  have age : closeAge (y.member.state = .member) r = closeAge
      (if order = .stateFirst then (closeRound order s).member.state = .member else s.member.state = .member) r :=
    if_congr ages rfl rfl
  rw [age, config, demand] at stays expires
  refine ⟨fun below => closed.trans (stays below), fun positive reached => ?_⟩
  have ended := closed.trans (expires positive reached)
  refine ⟨ended, ?_⟩
  rw [result, ended, queue]
  simp

/-- A close from ISOLATED to MEMBER, but with the head's age after it, grants the heads that fit (R92, R106). -/
theorem closeRound_grants {order : CloseOrder} {s : State} (idle : s.line.idle = true) (quiet : noExpiryWaits s = true)
    (isolation : 0 < s.config.isolation) (leaves : order = .apart → leavesNoExpiry s.pending = true)
    (was : s.member.state ≠ .member) (is : (closeRound order s).member.state = .member) (other : order ≠ .stateFirst) :
    ∃ flags, HeadsGranted { s with
      line := (closeRound order s).line, peers := (closeRound order s).peers, share := (closeRound order s).share
      member := (closeRound order s).member, port := { s.port with flags := flags } } (closeRound order s) := by
  obtain ⟨m, u, enters, parts⟩ := closeRound_enters idle quiet isolation leaves was is
  rw [if_neg other] at parts
  rw [parts]
  exact ⟨_, tableClosed_enterMember enters⟩

/-! ### A close that leaves its count's expiry to the row behind it (log 3) -/

/-- Outside MEMBER a close leaves a queue whose head is below the limit. -/
theorem demandCloseApart_tableClosed {s : State}
    (head : ∀ r, s.demand.requests.head? = some r → s.config.askLimit = 0 ∨ r.age < s.config.askLimit)
    (state : s.member.state ≠ .member) : demandCloseApart s.tableClosed = s.tableClosed := by
  obtain ⟨member, -, -, config, -, demand, -⟩ := tableClosed_kept s
  exact demandCloseApart_of_not_member (by rw [member]; exact state) (by rw [demand, config]; exact head)

/-- In MEMBER the head ages alone where the row of its expiry stands next (R108; log 3). -/
theorem demandCloseApart_of_next {s : State} (next : standsNext .askLimitExpiry s = true) :
    demandCloseApart s.tableClosed = ageHead s.tableClosed := by
  obtain ⟨-, -, -, -, -, -, pending⟩ := tableClosed_kept s
  obtain ⟨d, frame⟩ := ageHead_frame s.tableClosed
  exact unlessNext_of_next _ ((standsNext_congr .askLimitExpiry (by rw [frame]; exact pending)).trans next)

theorem tableClosed_ask (s : State) : s.tableClosed.share.ask = s.share.ask := by
  rw [tableClosed_eq]
  rfl

theorem flagSet_ageHead (e : Event) (s : State) : flagSet e (ageHead s) = flagSet e s := by
  obtain ⟨d, frame⟩ := ageHead_frame s
  rw [frame]
  rfl

/-- Another membership record in place. -/
def State.withCounts (s : State) (m : Membership) : State := { s with member := m }

@[simp] theorem withCounts_member (s : State) (m : Membership) : (s.withCounts m).member = m := rfl
@[simp] theorem withCounts_share (s : State) (m : Membership) : (s.withCounts m).share = s.share := rfl
@[simp] theorem withCounts_demand (s : State) (m : Membership) : (s.withCounts m).demand = s.demand := rfl
@[simp] theorem withCounts_outputs (s : State) (m : Membership) : (s.withCounts m).outputs = s.outputs := rfl
@[simp] theorem withCounts_config (s : State) (m : Membership) : (s.withCounts m).config = s.config := rfl
@[simp] theorem flagSet_withCounts (e : Event) (s : State) (m : Membership) :
    flagSet e (s.withCounts m) = flagSet e s := rfl

section Left
variable {s : State} (idle : s.line.idle = true)
  (head : ∀ r, s.demand.requests.head? = some r → s.config.askLimit = 0 ∨ r.age < s.config.askLimit)
include idle head

theorem closeRound_left_of_member (state : s.member.state = .member)
    (below : s.member.isolationCount < s.config.isolation) (next : standsNext .isolationCountExpiry s = true) :
    closeRound .apart s = (demandCloseApart s.tableClosed).withCounts { s.member with
      isolationCount := nextIsolationCount s.store.station (Sixteen.toList (roundView s)) s.member.isolationCount } := by
  have left : takeLeftExpiries s = s := by
    rw [takeLeftExpiries_of_below ⟨by simp [state], by simp [state], fun _ => below⟩, expireHead_of_head head]
  obtain ⟨⟨d, f, moved⟩, -, -⟩ := demandCloseApart_moved s.tableClosed
  rw [closeRound_leaves_count idle left (by rw [state]; rfl) next, moved, tableClosed_eq]
  exact membershipCheck_of_member _ state

theorem closeRound_left_of_joining (state : s.member.state = .joining) (below : s.member.joinCount < 2)
    (next : standsNext .joinCountExpiry s = true) :
    closeRound .apart s = s.tableClosed.withCounts { s.member with
      joinCount := nextJoinCount s.store.station (Sixteen.toList (roundView s)) s.member.joinCount } := by
  have left : takeLeftExpiries s = s := by
    rw [takeLeftExpiries_of_below ⟨by simp [state], fun _ => below, by simp [state]⟩, expireHead_of_head head]
  rw [closeRound_leaves_count idle left (by rw [state]; rfl) next,
    demandCloseApart_tableClosed head (by simp [state]), tableClosed_eq]
  exact membershipCheck_of_joining _ state

theorem closeRound_left_of_listen (state : s.member.state = .listen) (below : s.member.listenCount ≤ s.config.lease)
    (next : standsNext .listenCountExpiry s = true) :
    closeRound .apart s
      = s.tableClosed.withCounts { s.member with listenCount := s.member.listenCount + 1 } := by
  have left : takeLeftExpiries s = s := by
    rw [takeLeftExpiries_of_below ⟨fun _ => below, by simp [state], by simp [state]⟩, expireHead_of_head head]
  rw [closeRound_leaves_count idle left (by rw [state]; rfl) next,
    demandCloseApart_tableClosed head (by simp [state]), tableClosed_eq]
  exact membershipCheck_of_listen _ state

end Left

theorem standsNext_front {s : State} {row : Instr} {rest : List Instr} (expiry : isExpiryRow row = true)
    (pending : s.pending = row :: rest) : standsNext row s = true := by
  rw [standsNext_cons expiry pending]
  simp

/-- The entry to ISOLATED may stand behind the close's completion (R75, R89, R123). -/
theorem standsNext_behind_completion {s : State} {rest : List Instr}
    (pending : s.pending = .shareComputationCompletion :: .isolationCountExpiry :: rest) :
    standsNext .isolationCountExpiry s = true := by
  unfold standsNext
  have front : (Instr.isolationCountExpiry :: rest).takeWhile isExpiryRow
      = .isolationCountExpiry :: rest.takeWhile isExpiryRow := List.takeWhile_cons_of_pos rfl
  rw [pending]
  simp [isExpiryRow, front]

/-- What the table and the queue leave of the state before a close. -/
theorem demandCloseApart_kept (s : State) : (demandCloseApart s.tableClosed).outputs = s.outputs
    ∧ (demandCloseApart s.tableClosed).share.ask = s.share.ask
    ∧ (demandCloseApart s.tableClosed).share.flight = some 0
    ∧ (demandCloseApart s.tableClosed).config = s.config
    ∧ flagSet .shed (demandCloseApart s.tableClosed) = flagSet .shed s := by
  have moved := demandCloseApart_moved s.tableClosed
  obtain ⟨-, outputs, share, config, -, -⟩ := demandMoved_kept moved
  obtain ⟨-, outputs', share', config', -, -, -⟩ := tableClosed_kept s
  obtain ⟨-, flags, -⟩ := moved
  rw [share, share']
  exact ⟨outputs.trans outputs', rfl, rfl, config.trans config',
    (flags .shed (by decide)).trans (flagSet_tableClosed (by decide) s)⟩

/-- A completion leaves the membership controller and the configuration. -/
theorem completeShare_kept {s : State} (flight : s.share.flight.isSome = true) :
    (completeShare s).member = s.member ∧ (completeShare s).config = s.config := by
  obtain ⟨l, a, frame⟩ := completeShare_frame flight
  obtain ⟨n, d, chs, f, parts⟩ := completed_frame s
  rw [frame, parts]
  exact ⟨rfl, rfl⟩

end Sys2Proof.Machine

section
open Sys2Proof Sys2Proof.Machine

/-- Settles O19: the counts by the lemma on each station state, the queue by `closeRound_head`, a row right behind the close
by `takeExpiry_closeRound_apart`, and a count left at its limit by `closeRound_left_of_member` and its like. -/
theorem roundCloseMovesTheStationsCount : Obligations.RoundCloseMovesTheStationsCount := by
  refine ⟨?counts, ?queue, ?behind, ?isolationLeft, ?completionFirst, ?joinLeft, ?listenLeft⟩
  case counts =>
    intro order s idle leaves
    have view := closeRound_view order idle
    refine ⟨closeRound order s, rfl, closeRound_of_listen idle leaves, ?_, ?_, ?_, closeRound_of_other idle leaves, ?_⟩
    · simp only [view]
      exact closeRound_of_joining idle leaves
    · simp only [view]
      exact closeRound_of_member idle leaves
    · intro state isolation
      simp only [view]
      obtain ⟨empty, listed⟩ := closeRound_of_isolated idle leaves state isolation
      rw [tableEmpty_iff] at empty listed
      refine ⟨fun absent => ⟨empty absent, fun quiet other => ?_⟩, fun ⟨n, held⟩ => listed fun absent => held (absent n)⟩
      exact closeRound_grants idle quiet isolation leaves (by simp [state]) (by rw [empty absent]) other
    · exact fun quiet isolation => ⟨closeRound_noExpiryWaits idle quiet isolation leaves,
        closeRound_membership idle leaves quiet isolation⟩
  case queue =>
    intro order s idle quiet isolation leaves
    refine ⟨closeRound order s, rfl, fun empty => ?_, fun r rest queue unfit => ?_⟩
    · obtain ⟨y, demand, -, -, closed⟩ := closeRound_demand idle quiet isolation leaves
        (fun _ _ r rest queue => absurd (empty.symm.trans queue) (by simp))
      rw [closed, demandClose_of_noRequests (by rw [demand]; exact empty), demand]
    · exact closeRound_head idle quiet isolation leaves queue unfit
  case behind =>
    intro s row rest idle quiet isolation expiry pending leaves
    refine ⟨closeRound .apart s, rfl, ?_⟩
    rw [exec_expiryRow expiry, takeExpiry_closeRound_apart idle quiet isolation expiry pending leaves]
    rfl
  case isolationLeft =>
    intro s rest idle state below head pending
    have headNext : standsNext .askLimitExpiry s = true := by
      rw [standsNext_cons rfl pending, standsNext_front (s := s.withPending (.askLimitExpiry :: rest)) rfl rfl]
      simp
    have parts := closeRound_left_of_member idle head state below (standsNext_front rfl pending)
    obtain ⟨outputs, ask, -, -, shed⟩ := demandCloseApart_kept s
    obtain ⟨member, -, -, -, -, demand, -⟩ := tableClosed_kept s
    have aged := ageHead_of_member (s := s.tableClosed) (by rw [member]; exact state)
    have result := (flagSet_ageHead .result s.tableClosed).trans (flagSet_tableClosed (by decide) s)
    rw [demand] at aged
    rw [demandCloseApart_of_next headNext] at parts outputs ask shed
    refine ⟨closeRound .apart s, rfl, ?_⟩
    rw [parts, withCounts_member, withCounts_demand, withCounts_outputs, withCounts_share, flagSet_withCounts,
      flagSet_withCounts]
    refine ⟨rfl, nextIsolationCount_cases _ _ _, aged.trans ?_, outputs, ask, shed, result⟩
    cases s.demand.requests <;> rfl
  case completionFirst =>
    intro s rest idle state below head pending
    have parts := closeRound_left_of_member idle head state below (standsNext_behind_completion pending)
    obtain ⟨outputs, ask, inFlight, config, shed⟩ := demandCloseApart_kept s
    rw [← withCounts_share, ← parts] at ask inFlight
    rw [← withCounts_outputs, ← parts] at outputs
    rw [← withCounts_config, ← parts] at config
    rw [← flagSet_withCounts, ← parts] at shed
    obtain ⟨member', config'⟩ := completeShare_kept (s := closeRound .apart s) (by rw [inFlight]; rfl)
    rw [config] at config'
    have count : (closeRound .apart s).member = { s.member with
        isolationCount := (closeRound .apart s).member.isolationCount } := by rw [parts]; rfl
    have moved : (closeRound .apart s).member.isolationCount = 0
        ∨ (closeRound .apart s).member.isolationCount = s.member.isolationCount + 1 := by
      rw [parts]
      exact nextIsolationCount_cases _ _ _
    refine ⟨closeRound .apart s, completeShare (closeRound .apart s),
      takeIsolationExpiry (completeShare (closeRound .apart s)), rfl, rfl, rfl, count, moved, ask, outputs, inFlight,
      member', shed, fun reached => ?_, fun short => ?_⟩
    · rw [takeIsolationExpiry_of_reached (by rw [member', count]; exact state)
        (by rw [member', config']; exact Nat.le_of_eq reached.symm), enterIsolated_member, enterIsolated_eq, config']
      exact ⟨rfl, by simp [AskRecord.empty], by simp, fun c => by simp [cutTo_get_eq]⟩
    · apply if_neg
      rintro ⟨-, reached⟩
      rw [member', config'] at reached
      exact absurd short (Nat.not_lt.mpr reached)
  case joinLeft =>
    intro s rest idle state below head pending
    obtain ⟨-, outputs, -, -, -, demand, -⟩ := tableClosed_kept s
    have shed := flagSet_tableClosed (e := .shed) (by decide) s
    have result := flagSet_tableClosed (e := .result) (by decide) s
    refine ⟨closeRound .apart s, rfl, ?_⟩
    rw [closeRound_left_of_joining idle head state below (standsNext_front rfl pending), withCounts_member,
      withCounts_demand, withCounts_outputs, withCounts_share, flagSet_withCounts, flagSet_withCounts]
    exact ⟨rfl, nextJoinCount_cases _ _ _, demand, outputs, tableClosed_ask s, shed, result⟩
  case listenLeft =>
    intro s rest idle state below head pending
    obtain ⟨-, outputs, -, -, -, demand, -⟩ := tableClosed_kept s
    have shed := flagSet_tableClosed (e := .shed) (by decide) s
    have result := flagSet_tableClosed (e := .result) (by decide) s
    refine ⟨closeRound .apart s, rfl, ?_⟩
    rw [closeRound_left_of_listen idle head state below (standsNext_front rfl pending), withCounts_member,
      withCounts_demand, withCounts_outputs, withCounts_share, flagSet_withCounts, flagSet_withCounts]
    exact ⟨rfl, demand, outputs, tableClosed_ask s, shed, result⟩

end
end

section
/-! PROOFS. The station's entries to JOINING, MEMBER, ISOLATED, PARKING, PARKED and FAULT: what ends every request, what
cuts every level, and what calls for a head re-check (R75, R84 to R97, R106, R111, R121, R127). -/

namespace Sys2Proof.Machine

/-! ### Requests that end together (R111, R112) -/

/-- A channel without a request among those that end keeps its last result. -/
theorem endedBy_get_of_other (code : ResultCode) {rs : List Request} (results : Four LastResult) {c : Chan}
    (h : ∀ q ∈ rs, q.channel ≠ c) : (endedBy code rs results).get c = results.get c := by
  induction rs generalizing results with
  | nil => rfl
  | cons r rest ih =>
    obtain ⟨first, others⟩ := List.forall_mem_cons.mp h
    exact (ih _ others).trans (Four.get_set_other _ _ _ _ first.symm)

/-- In a queue in order, where each channel has one request, every request that ends leaves its own result. -/
theorem endedBy_get_of_mem (code : ResultCode) {rs : List Request} (results : Four LastResult)
    (order : inQueueOrder rs = true) {q : Request} (queued : q ∈ rs) :
    (endedBy code rs results).get q.channel = { tag := q.tag, code := code } := by
  induction rs generalizing results with
  | nil => exact absurd queued List.not_mem_nil
  | cons r rest ih =>
    obtain ⟨distinct, ordered⟩ : (∀ p ∈ rest, r.goesBefore p = true ∧ r.channel ≠ p.channel)
        ∧ inQueueOrder rest = true := by simpa [inQueueOrder] using order
    rcases List.mem_cons.mp queued with rfl | later
    · have others : ∀ p ∈ rest, p.channel ≠ q.channel := fun p hp => (distinct p hp).2.symm
      exact (endedBy_get_of_other code _ others).trans (Four.get_set_same _ _ _)
    · exact ih _ ordered later

theorem foldParked_eq (rs : List Request) (s : State) :
    rs.foldl (fun t r => writeResult r.channel r.tag .parked t) s = { s with
      demand := { s.demand with lastResults := endedBy .parked rs s.demand.lastResults }
      port := { s.port with flags := if rs = [] then s.port.flags else s.port.flags ||| Event.result.mask } } := by
  induction rs generalizing s with
  | nil => rfl
  | cons r rest ih =>
    rw [List.foldl_cons, ih]
    cases rest with
    | nil => rfl
    | cons q rest => simp [writeResult, raise, endedBy, BitVec.or_assoc]

/-- Every request has ended PARKED under its tag, and RESULT is set where one did (R111, R112). -/
def State.allParked (s : State) : State := { s with
  demand := { s.demand with
    requests := [], lastResults := endedBy .parked s.demand.requests s.demand.lastResults }
  port := { s.port with
    flags := if s.demand.requests = [] then s.port.flags else s.port.flags ||| Event.result.mask } }

theorem endAllParked_eq (s : State) : endAllParked s = s.allParked := foldParked_eq s.demand.requests (setRequests [] s)

/-- From one state to another the station state has changed and every queued request has ended PARKED. -/
structure QueueParked (s t : State) : Prop where
  demand : t.demand = { s.demand with
    requests := [], lastResults := endedBy .parked s.demand.requests s.demand.lastResults }
  flags : t.port.flags = if s.demand.requests = [] then s.port.flags ||| Event.membership.mask
    else s.port.flags ||| Event.membership.mask ||| Event.result.mask

section Parked
variable {s t : State} (h : QueueParked s t)
include h

theorem QueueParked.result_of_queued (order : queueInOrder s = true) (q : Request) (queued : q ∈ s.demand.requests) :
    t.demand.lastResults.get q.channel = { tag := q.tag, code := .parked } := by
  rw [h.demand]
  exact endedBy_get_of_mem .parked _ (Bool.and_eq_true_iff.mp order).1 queued

theorem QueueParked.result_of_other (c : Chan) (other : ∀ q ∈ s.demand.requests, q.channel ≠ c) :
    t.demand.lastResults.get c = s.demand.lastResults.get c := by
  rw [h.demand]
  exact endedBy_get_of_other .parked _ other

theorem QueueParked.flagSet_membership : flagSet .membership t = true := by
  by_cases empty : s.demand.requests = []
  · simp [flagSet, h.flags, empty, Event.getLsbD_mask]
  · simp [flagSet, h.flags, empty, Event.getLsbD_mask]

theorem QueueParked.flagSet_result (queued : s.demand.requests ≠ []) : flagSet .result t = true := by
  simp [flagSet, h.flags, queued, Event.getLsbD_mask]

end Parked

/-! ### Entry to FAULT (R97, R127) -/

/-- A frame with the own station number is a duplicate notice, whatever its kind (R5). -/
theorem takeFrame_own {f : Frame} {s : State} (own : f.source = s.store.station) : takeFrame f s = takeDuplicate s := by
  cases f with
  | claim n q c => exact if_pos own
  | leave n q code => exact if_pos own

theorem takeDuplicate_of_fault {s : State} (h : s.member.state = .fault) : takeDuplicate s = s := if_pos h

/-- The first duplicate notice silences the transmitter, forces every channel to zero and ends every request. -/
theorem takeDuplicate_of_not_fault {s : State} (h : s.member.state ≠ .fault) :
    takeDuplicate s = State.allParked { s with
    line := { s.line with transmitter := .silent }
    member := { s.member with state := .fault, cause := .duplicate }
    share := { s.share with ask := s.share.ask.empty }
    outputs := { s.outputs with channels := s.outputs.channels.map Channel.force }
    port := { s.port with flags := s.port.flags ||| Event.membership.mask } } := by
  unfold takeDuplicate
  rw [if_neg h, endAllParked_eq]
  rfl

theorem takeDuplicate_parks {s : State} (h : s.member.state ≠ .fault) : QueueParked s (takeDuplicate s) := by
  rw [takeDuplicate_of_not_fault h]
  exact ⟨rfl, rfl⟩

/-! ### Entry to MEMBER (R86, R91, R106) -/

theorem isConfirming_iff (ownCode : Half) (n : Station) (c : ClaimBody) : isConfirming ownCode n c = true
    ↔ c.joining = false ∧ c.code = ownCode ∧ c.heard.getLsbD n.toNat = true := by
  simp [isConfirming, names, and_assoc]

/-- The row of a CLAIM is replaced, with PEER where it was not LIVE (R25 to R27, R39). -/
def State.claimTaken (s : State) (n : Station) (q : Byte) (c : ClaimBody) : State := { s with
  peers := Sixteen.set s.peers n ((Sixteen.get s.peers n).afterClaim s.config.circuitCode q c)
  port := { s.port with flags := if (Sixteen.get s.peers n).state = .live then s.port.flags
                                 else s.port.flags ||| Event.peer.mask } }

theorem raiseIf_setRow_eq_claimTaken (s : State) (n : Station) (q : Byte) (c : ClaimBody) :
    raiseIf (decide ((Sixteen.get s.peers n).state ≠ .live)) .peer
      (setRow n ((Sixteen.get s.peers n).afterClaim s.config.circuitCode q c) s) = s.claimTaken n q c := by
  by_cases live : (Sixteen.get s.peers n).state = .live
  · simp [live, raiseIf, setRow, State.claimTaken]
  · simp [live, raiseIf, setRow, raise, State.claimTaken]

/-- A confirming frame takes an ISOLATED station to MEMBER once its row is replaced; any other CLAIM replaces its row
alone (R28, R91). -/
theorem claimArrival_eq (n : Station) (q : Byte) (c : ClaimBody) (s : State) : claimArrival n q c s
    = if s.member.state = .isolated ∧ isConfirming s.config.circuitCode s.store.station c = true
      then enterMember (s.claimTaken n q c) else s.claimTaken n q c := by
  unfold claimArrival
  dsimp only
  rw [raiseIf_setRow_eq_claimTaken]
  rfl

theorem appliedTotal_congr {x y : Four Channel} (h : ∀ c, (x.get c).applied = (y.get c).applied) :
    appliedTotal x = appliedTotal y := by
  have h0 : x.q0.applied = y.q0.applied := h 0
  have h1 : x.q1.applied = y.q1.applied := h 1
  have h2 : x.q2.applied = y.q2.applied := h 2
  have h3 : x.q3.applied = y.q3.applied := h 3
  simp only [appliedTotal, h0, h1, h2, h3]

/-- A head re-check applies nothing, so the applied total stays (R106, R116). -/
theorem appliedTotal_headRecheck (s : State) :
    appliedTotal (headRecheck s).outputs.channels = appliedTotal s.outputs.channels :=
  appliedTotal_congr fun c => (headRecheck_channel s c).2

theorem enterMember_of_noRequests {s : State} (h : s.demand.requests = []) :
    enterMember s = enter .member { s with member := { s.member with isolationCount := 0 } } :=
  headRecheck_of_noRequests h

theorem takeJoinExpiry_of_reached {s : State} (state : s.member.state = .joining) (reached : 2 ≤ s.member.joinCount) :
    takeJoinExpiry s = enterMember s := if_pos ⟨state, reached⟩

theorem takeListenExpiry_of_reached {s : State} (state : s.member.state = .listen)
    (reached : s.config.lease + 1 ≤ s.member.listenCount) : takeListenExpiry s = enterJoining s :=
  if_pos ⟨state, reached⟩

/-! ### Entry to ISOLATED (R89, R123) -/

/-- The entry in the terms of the state before it: SHED exactly where the committed total is above the floor. -/
theorem enterIsolated_state (s : State) : enterIsolated s = { s with
    member := { s.member with state := .isolated }
    share := { s.share with ask := s.share.ask.empty }
    outputs := { s.outputs with channels := cutTo s.config.floor s.outputs.channels }
    port := { s.port with
      flags := if committedTotal s.outputs.channels ≤ s.config.floor then s.port.flags ||| Event.membership.mask
        else s.port.flags ||| Event.membership.mask ||| Event.shed.mask } } := by
  rw [enterIsolated_eq]
  by_cases within : committedTotal s.outputs.channels ≤ s.config.floor
  · simp [within, raiseIf, Nat.not_lt.mpr within, onChannels, emptyAsk, setAsk, enter, raise]
  · simp [within, raiseIf, Nat.not_le.mp within, onChannels, emptyAsk, setAsk, enter, raise]

/-! ### PARK (R94, R124) -/

/-- A cut to zero leaves no channel a level. -/
theorem committed_cutTo_zero (chs : Four Channel) (c : Chan) : ((cutTo 0 chs).get c).committed = 0 := by
  have level := committed_le_total (cutTo 0 chs) c
  rw [committedTotal_cutTo] at level
  omega

/-- A channel that gives its whole level loses its gate and carries the cut mark (R120, R121). -/
theorem afterCut_of_all {target : Nat} {chs : Four Channel} {c : Chan} (held : 0 < (chs.get c).committed)
    (all : (afterCut target chs c).committed = 0) :
    (afterCut target chs c).gate = none ∧ (afterCut target chs c).cut = true := by
  unfold afterCut at all ⊢
  dsimp only at all ⊢
  split at all
  case isTrue nothing => omega
  case isFalse gives =>
    rw [if_neg gives]
    refine ⟨?_, rfl⟩
    cases (chs.get c).gate with
    | none => rfl
    | some g =>
      have low : (chs.get c).committed - min (chs.get c).committed (committedTotal chs - target - committedAhead chs c)
          ≤ g := Nat.le_trans (Nat.le_of_eq all) (Nat.zero_le g)
      exact if_pos low

/-- In LISTEN a PARK ends every request and leaves the channels (R94, R111). -/
theorem park_of_listen {s : State} (h : s.member.state = .listen) :
    park s = (.accepted, (enter .parked s).allParked) := by
  unfold park
  rw [h, ← endAllParked_eq]

/-- In JOINING, MEMBER and ISOLATED a PARK empties the ask and cuts every level to zero as well (R75, R124). -/
theorem park_of_active {s : State}
    (h : s.member.state = .joining ∨ s.member.state = .member ∨ s.member.state = .isolated) :
    park s = (.accepted, onChannels (cutTo 0) (emptyAsk (enter .parking s)).allParked) := by
  unfold park
  rw [← endAllParked_eq]
  rcases h with h | h | h
  all_goals rw [h]

theorem park_of_other {s : State} (h : s.member.state = .start ∨ s.member.state = .parking
    ∨ s.member.state = .parked ∨ s.member.state = .fault) : park s = (.refusedState, s) := by
  unfold park
  rcases h with h | h | h | h
  all_goals rw [h]

theorem park_parks {s : State} (h : s.member.state = .listen ∨ s.member.state = .joining ∨ s.member.state = .member
    ∨ s.member.state = .isolated) : QueueParked s (park s).2 := by
  rcases h with listen | active
  · rw [park_of_listen listen]
    exact ⟨rfl, rfl⟩
  · rw [park_of_active active]
    exact ⟨rfl, rfl⟩

/-- What a PARK can change, in any station state. -/
theorem park_frame (s : State) : ∃ m a requests results chs f, (park s).2
    = s.withMember m a { s.demand with requests := requests, lastResults := results } chs f := by
  cases state : s.member.state with
  | listen =>
    rw [park_of_listen state]
    exact ⟨_, s.share.ask, _, _, s.outputs.channels, _, rfl⟩
  | joining | member | isolated =>
    rw [park_of_active (by simp [state])]
    exact ⟨_, _, _, _, _, _, rfl⟩
  | start | parking | parked | fault =>
    rw [park_of_other (by simp [state])]
    exact ⟨s.member, s.share.ask, s.demand.requests, s.demand.lastResults, s.outputs.channels, s.port.flags, rfl⟩

/-! ### REJOIN (R96) -/

theorem rejoin_of_parked {s : State} (h : s.member.state = .parked) : rejoin s
    = (.accepted, enterJoining { s with store := { s.store with key := .locked }
                                        line := { s.line with awaitsExpiry := true } }) := if_pos h

theorem rejoin_of_not_parked {s : State} (h : s.member.state ≠ .parked) : rejoin s = (.refusedState, s) := if_neg h

end Sys2Proof.Machine

section
open Sys2Proof Sys2Proof.Machine

/-- Settles O13: a confirming frame is the row's replacement and an entry to MEMBER, any other the replacement alone. -/
theorem confirmingFrameEndsIsolation : Obligations.ConfirmingFrameEndsIsolation := by
  intro s r n q c reception closed valid heard other isolated
  rw [← isConfirming_iff]
  refine ⟨claimArrival n q c s.receptionTaken, ?_, ?_, ?_⟩
  · rw [exec_receptionEnd_valid reception closed valid heard,
      takeFrame_claim_other (s := s.receptionTaken) q c other]
  · intro confirms
    have arrival : claimArrival n q c s.receptionTaken = enterMember (s.receptionTaken.claimTaken n q c) :=
      (claimArrival_eq _ _ _ _).trans (if_pos ⟨isolated, confirms⟩)
    rw [arrival, enterMember_peers]
    exact ⟨enterMember_member _, by simp [flagSet_enterMember], enterMember_grants (s.receptionTaken.claimTaken n q c)⟩
  · intro unconfirmed
    have arrival : claimArrival n q c s.receptionTaken = s.receptionTaken.claimTaken n q c :=
      (claimArrival_eq _ _ _ _).trans (if_neg fun confirmed => unconfirmed confirmed.2)
    rw [arrival]
    exact ⟨rfl, rfl, rfl, rfl⟩

/-- Settles O15: in FAULT by `takeDuplicate_of_fault`; elsewhere by what `takeDuplicate_of_not_fault` says of every
field, the channels by `Channel.force`. -/
theorem duplicateSendsTheStationToFault : Obligations.DuplicateSendsTheStationToFault := by
  intro s r f reception closed valid heard own
  refine ⟨takeDuplicate s.receptionTaken, ?_, fun fault => takeDuplicate_of_fault (s := s.receptionTaken) fault, ?_⟩
  · rw [exec_receptionEnd_valid reception closed valid heard, takeFrame_own (s := s.receptionTaken) own]
  · intro notFault
    have taken := takeDuplicate_of_not_fault (s := s.receptionTaken) notFault
    obtain ⟨demand, flags⟩ := takeDuplicate_parks (s := s.receptionTaken) notFault
    have parked : QueueParked s (takeDuplicate s.receptionTaken) := ⟨demand, flags⟩
    refine ⟨?_, ?_, parked.result_of_queued, parked.result_of_other, parked.flagSet_membership⟩
    · rw [taken]
      rfl
    · intro c
      rw [taken]
      exact Four.get_map Channel.force _ c

/-- Settles O20: each row takes its own expiry; the join count's is the entry to MEMBER. -/
theorem reachedCountsTakeEffect : Obligations.ReachedCountsTakeEffect := by
  refine ⟨?listen, ?join, ?head⟩
  case listen =>
    intro s state reached
    rw [exec_listenCountExpiry, execListenCountExpiry, takeListenExpiry_of_reached state reached]
    rfl
  case join =>
    intro s state reached
    rw [exec_joinCountExpiry, execJoinCountExpiry, takeJoinExpiry_of_reached state reached]
    refine ⟨enterMember s, rfl, ?_, by simp [flagSet_enterMember], appliedTotal_headRecheck _, enterMember_grants s, ?_⟩
    · obtain ⟨d, chs, f, frame⟩ := enterMember_frame s
      rw [frame]
    · intro empty
      rw [enterMember_of_noRequests empty]
      exact ⟨rfl, rfl⟩
  case head =>
    intro s r rest queue limit reached
    rw [exec_askLimitExpiry, execAskLimitExpiry, expireHead_cons queue, if_pos ⟨limit, reached⟩]
    rfl

/-- Settles O21: `enterIsolated_state` gives every field, and the cut's lemmas the levels. -/
theorem isolationCutsToTheFloor : Obligations.IsolationCutsToTheFloor := by
  intro s state reached
  rw [exec_isolationCountExpiry, execIsolationCountExpiry, takeIsolationExpiry_of_reached state reached,
    enterIsolated_state]
  refine ⟨_, rfl, rfl, committedTotal_cutTo _ _, fun c => cutTo_get_eq _ _ c, fun c => ?_⟩
  obtain ⟨committed, -, applied, priority, tripped, -⟩ := cutTo_get s.config.floor s.outputs.channels c
  exact ⟨applied, committed, priority, tripped⟩

/-- Settles O45: PARK's frame in any station state by `park_frame`, the ended requests by `park_parks`, and the rest by
the station state; REJOIN by whether the station is PARKED. -/
theorem parkWithdrawsAndRejoinReturns : Obligations.ParkWithdrawsAndRejoinReturns := by
  refine ⟨?park, ?rejoin⟩
  case park =>
    intro s link
    rw [exec_park, execPark, takeCommand_at_cmd link]
    have parks : (s.member.state = .listen ∨ s.member.state = .joining ∨ s.member.state = .member
        ∨ s.member.state = .isolated) →
        QueueParked s (setResult (park (s.cmdTaken 5)).1 (park (s.cmdTaken 5)).2) := fun h =>
      have ⟨demand, flags⟩ := park_parks (s := s.cmdTaken 5) h
      ⟨demand, flags⟩
    refine ⟨_, rfl, ?frame, ?ended, ?listen, ?active, ?other⟩
    case frame =>
      obtain ⟨m, a, requests, results, chs, f, frame⟩ := park_frame (s.cmdTaken 5)
      rw [frame]
      rfl
    case ended =>
      intro h
      exact ⟨(parks h).result_of_queued, (parks h).result_of_other, (parks h).demand, (parks h).flagSet_result,
        (parks h).flags⟩
    case listen =>
      intro listen
      have membership := (parks (.inl listen)).flagSet_membership
      rw [park_of_listen (s := s.cmdTaken 5) listen] at membership ⊢
      exact ⟨rfl, rfl, rfl, rfl, rfl, membership⟩
    case active =>
      intro active
      have membership := (parks (.inr active)).flagSet_membership
      rw [park_of_active (s := s.cmdTaken 5) active] at membership ⊢
      refine ⟨rfl, rfl, rfl, rfl, fun c => cutTo_get_eq 0 _ c, fun c => ?_, membership⟩
      have zero := committed_cutTo_zero s.outputs.channels c
      obtain ⟨-, -, applied, priority, -⟩ := cutTo_get 0 s.outputs.channels c
      refine ⟨zero, applied, priority, fun held => ?_⟩
      have gave := afterCut_of_all held (by rw [← cutTo_get_eq]; exact zero)
      rw [← cutTo_get_eq] at gave
      exact gave
    case other =>
      intro other
      rw [park_of_other (s := s.cmdTaken 5) other]
      rfl
  case rejoin =>
    intro s link
    rw [exec_rejoin, execRejoin, takeCommand_at_cmd link]
    refine ⟨fun parked => ?_, fun elsewhere => ?_⟩
    · rw [rejoin_of_parked (s := s.cmdTaken 6) parked]
      rfl
    · rw [rejoin_of_not_parked (s := s.cmdTaken 6) elsewhere]
      rfl

end
end

section
/-! PROOFS. The demand queue's operations: a request that ends, a request in its place, and what an accepted SUBMIT comes
to (R100, R103 to R105, R112). -/

namespace Sys2Proof.Machine

/-! ### The request of a channel (R100, R112) -/

theorem Four.set_set {α : Type} (x : Four α) (i : Chan) (a b : α) : (x.set i a).set i b = x.set i b := by
  rcases chan_cases i with rfl | rfl | rfl | rfl
  all_goals rfl

theorem requestFor_eq_none_iff {c : Chan} {rs : List Request} :
    requestFor c rs = none ↔ ∀ r ∈ rs, r.channel ≠ c := by
  simp [requestFor]

theorem requestFor_ne_none_iff {c : Chan} {rs : List Request} :
    requestFor c rs ≠ none ↔ ∃ r ∈ rs, r.channel = c := by
  simp [requestFor_eq_none_iff]

theorem mem_withoutChannel {c : Chan} {rs : List Request} {r : Request} :
    r ∈ withoutChannel c rs ↔ r ∈ rs ∧ r.channel ≠ c := by
  simp [withoutChannel]

/-- A channel with no request has none to end. -/
theorem endRequestFor_of_none {c : Chan} {s : State} (code : ResultCode)
    (h : requestFor c s.demand.requests = none) : endRequestFor c code s = s := by
  unfold endRequestFor
  rw [h]

/-- The request of a channel leaves the queue with a result under its own tag (R112). -/
theorem endRequestFor_of_some {c : Chan} {s : State} {r : Request} (code : ResultCode)
    (h : requestFor c s.demand.requests = some r) : endRequestFor c code s
      = writeResult c r.tag code (setRequests (withoutChannel c s.demand.requests) s) := by
  unfold endRequestFor
  rw [h]

theorem endRequestFor_nextArrival (c : Chan) (code : ResultCode) (s : State) :
    (endRequestFor c code s).demand.nextArrival = s.demand.nextArrival := by
  cases h : requestFor c s.demand.requests with
  | none => rw [endRequestFor_of_none code h]
  | some r => rw [endRequestFor_of_some code h]; rfl

/-- A result that follows at once replaces the one a request of the channel ended with, and RESULT is set once. -/
theorem writeResult_endRequestFor (c : Chan) (tag : Byte) (code old : ResultCode) (s : State) :
    writeResult c tag code (endRequestFor c old s)
      = writeResult c tag code (setRequests (withoutChannel c s.demand.requests) s) := by
  cases h : requestFor c s.demand.requests with
  | none =>
    have unchanged := endRequestFor_requests c old s
    rw [endRequestFor_of_none old h] at unchanged ⊢
    rw [← unchanged]
    rfl
  | some r =>
    rw [endRequestFor_of_some old h]
    simp [writeResult, raise, setRequests, Four.set_set, BitVec.or_assoc]

/-! ### The place of a new request (R105) -/

theorem insertRequest_split (r : Request) (rs : List Request) :
    ∃ before after, insertRequest r rs = before ++ r :: after ∧ rs = before ++ after
      ∧ (∀ q ∈ before, r.priority ≤ q.priority) ∧ ∀ q rest, after = q :: rest → q.priority < r.priority := by
  induction rs with
  | nil => exact ⟨[], [], rfl, rfl, by simp, by simp⟩
  | cons q qs ih =>
    unfold insertRequest
    split
    case isTrue high =>
      obtain ⟨before, after, inserted, split, above, below⟩ := ih
      exact ⟨q :: before, after, by rw [inserted]; rfl, by rw [split]; rfl,
        List.forall_mem_cons.mpr ⟨high, above⟩, below⟩
    case isFalse low =>
      refine ⟨[], q :: qs, rfl, rfl, by simp, fun p rest same => ?_⟩
      obtain ⟨rfl, -⟩ := List.cons.inj same
      exact BitVec.not_le.mp low

/-- One request goes before another, which is for another channel (R100). -/
def Request.precedes (a b : Request) : Prop := a.goesBefore b = true ∧ a.channel ≠ b.channel

theorem Request.goesBefore_iff (a b : Request) : a.goesBefore b = true ↔
    b.priority < a.priority ∨ (a.priority = b.priority ∧ a.arrival < b.arrival) := by
  simp [Request.goesBefore]

theorem Request.goesBefore_priority {a b : Request} (h : a.goesBefore b = true) : b.priority ≤ a.priority := by
  rw [Request.goesBefore_iff] at h
  bv_omega

theorem inQueueOrder_iff (rs : List Request) : inQueueOrder rs = true ↔ rs.Pairwise Request.precedes := by
  induction rs with
  | nil => simp [inQueueOrder]
  | cons r rest ih => simp [inQueueOrder, Request.precedes, ih]

theorem queueInOrder_iff (s : State) : queueInOrder s = true ↔
    s.demand.requests.Pairwise Request.precedes ∧ ∀ r ∈ s.demand.requests, r.arrival < s.demand.nextArrival := by
  simp [queueInOrder, inQueueOrder_iff]

/-- In a queue in order, what stands behind the new request has lower priority, and not its first alone (R105). -/
theorem insertRequest_place {r : Request} {rs : List Request} :
    ∃ before after, insertRequest r rs = before ++ r :: after ∧ rs = before ++ after
      ∧ (∀ q ∈ before, r.priority ≤ q.priority)
      ∧ (rs.Pairwise Request.precedes → ∀ q ∈ after, q.priority < r.priority) := by
  obtain ⟨before, after, inserted, split, above, first⟩ := insertRequest_split r rs
  refine ⟨before, after, inserted, split, above, fun ordered q behind => ?_⟩
  rw [split] at ordered
  obtain ⟨-, later, -⟩ := List.pairwise_append.mp ordered
  cases after with
  | nil => exact absurd behind List.not_mem_nil
  | cons p rest =>
    have lead : p.priority < r.priority := first p rest rfl
    rcases List.mem_cons.mp behind with rfl | further
    · exact lead
    · have follows := Request.goesBefore_priority (List.rel_of_pairwise_cons later further).1
      bv_omega

/-- A request that arrives last, for a channel with none queued, keeps the order in its place (R100, R105). -/
theorem insertRequest_pairwise {r : Request} {rs : List Request} (ordered : rs.Pairwise Request.precedes)
    (last : ∀ q ∈ rs, q.arrival < r.arrival) (other : ∀ q ∈ rs, q.channel ≠ r.channel) :
    (insertRequest r rs).Pairwise Request.precedes := by
  obtain ⟨before, after, inserted, split, above, below⟩ := insertRequest_place (r := r) (rs := rs)
  have lower := below ordered
  rw [split] at ordered last other
  obtain ⟨front, back, cross⟩ := List.pairwise_append.mp ordered
  have behind : ∀ q ∈ after, r.precedes q := fun q mem =>
    ⟨(Request.goesBefore_iff r q).mpr (.inl (lower q mem)), (other q (by simp [mem])).symm⟩
  have ahead : ∀ q ∈ before, q.precedes r := by
    intro q mem
    have high := above q mem
    have earlier := last q (by simp [mem])
    refine ⟨(Request.goesBefore_iff q r).mpr ?_, other q (by simp [mem])⟩
    bv_omega
  rw [inserted]
  refine List.pairwise_append.mpr ⟨front, List.pairwise_cons.mpr ⟨behind, back⟩, fun a mem b later => ?_⟩
  rcases List.mem_cons.mp later with rfl | later
  · exact ahead a mem
  · exact cross a mem b later

theorem mem_insertRequest {r q : Request} {rs : List Request} : q ∈ insertRequest r rs ↔ q = r ∨ q ∈ rs := by
  obtain ⟨before, after, inserted, split, -, -⟩ := insertRequest_split r rs
  rw [inserted, split]
  simp only [List.mem_append, List.mem_cons]
  tauto

/-! ### What an accepted SUBMIT comes to (R103 to R105) -/

/-- The channel of a SUBMIT as its effect finds it, its cut mark cleared (R103). -/
def State.uncut (s : State) (c : Chan) : Channel := { s.outputs.channels.get c with cut := false }

/-- A SUBMIT ends DONE at once: a channel record in place, the former request gone, and one result (R103, R104). -/
def State.submitDone (s : State) (c : Chan) (tag : Byte) (ch : Channel) : State := { s with
  demand := { s.demand with
    requests := withoutChannel c s.demand.requests, lastResults := s.demand.lastResults.set c { tag := tag, code := .done } }
  outputs := { s.outputs with channels := s.outputs.channels.set c ch }
  port := { s.port with flags := s.port.flags ||| Event.result.mask } }

/-- The request that a SUBMIT queues (R105). -/
def State.newRequest (s : State) (c : Chan) (target : Nat) (priority : Priority) (tag : Byte) : Request :=
  { channel := c, target := target, priority := priority, tag := tag, age := 0, arrival := s.demand.nextArrival }

/-- A SUBMIT is queued: the former request has ended SUPERSEDED, and the new one stands in its place (R103, R105). -/
def State.submitQueued (s : State) (c : Chan) (r : Request) : State := { endRequestFor c .superseded s with
  demand := { (endRequestFor c .superseded s).demand with
    requests := insertRequest r (withoutChannel c s.demand.requests), nextArrival := s.demand.nextArrival + 1 }
  outputs := { s.outputs with channels := s.outputs.channels.set c (s.uncut c) } }

/-- A level that stays in place leaves what a local grant on its channel needs (R104). -/
theorem fitsLocally_of_level {s : State} {c : Chan} {ch : Channel} (d : DemandQueue) (f : BitVec 9) (target : Nat)
    (level : ch.committed = (s.outputs.channels.get c).committed) :
    fitsLocally (s.withDemand d (s.outputs.channels.set c ch) f) c target = fitsLocally s c target := by
  have total := committedTotal_set s.outputs.channels c ch
  have needed : neededTotal (s.outputs.channels.set c ch) c target = neededTotal s.outputs.channels c target := by
    unfold neededTotal
    rw [Four.get_set_same]
    omega
  unfold fitsLocally
  simp only [needed]
  rfl

/-- Ending the former request and clearing the cut mark leaves what a local grant needs (R104). -/
theorem fitsLocally_of_formerEnded (s : State) (c : Chan) (target : Nat) :
    fitsLocally (onChannel c (fun ch => { ch with cut := false }) (endRequestFor c .superseded s)) c target
      = fitsLocally s c target := by
  obtain ⟨d, f, ended⟩ := endRequestFor_frame c .superseded s
  rw [ended]
  exact fitsLocally_of_level (ch := s.uncut c) d f target rfl

/-- A SUBMIT that ends DONE overwrites the result its former request ended with (R103, R112). -/
theorem writeResult_of_formerEnded (s : State) (c : Chan) (tag : Byte) (g : Channel → Channel) :
    writeResult c tag .done (onChannel c g
        (onChannel c (fun ch => { ch with cut := false }) (endRequestFor c .superseded s)))
      = s.submitDone c tag (g (s.uncut c)) := by
  have resultFirst : writeResult c tag .done (onChannel c g
      (onChannel c (fun ch => { ch with cut := false }) (endRequestFor c .superseded s)))
      = onChannel c g (onChannel c (fun ch => { ch with cut := false })
          (writeResult c tag .done (endRequestFor c .superseded s))) := rfl
  rw [resultFirst, writeResult_endRequestFor]
  simp [onChannel, writeResult, raise, setRequests, State.submitDone, State.uncut, Four.set_set]

/-- The ends of an accepted SUBMIT, in the terms of the state before it (R103 to R105). -/
theorem carrySubmit_eq (c : Chan) (target : Nat) (priority : Priority) (tag : Byte) (s : State) :
    carrySubmit c target priority tag s
      = if target ≤ (s.outputs.channels.get c).committed then
          if target < (s.outputs.channels.get c).committed
          then headRecheck (s.submitDone c tag ((s.uncut c).decrease target priority))
          else s.submitDone c tag ((s.uncut c).decrease target priority)
        else if fitsLocally s c target then s.submitDone c tag ((s.uncut c).grantLocally target priority)
        else s.submitQueued c (s.newRequest c target priority tag) := by
  have outputs : (endRequestFor c .superseded s).outputs = s.outputs := by
    obtain ⟨d, f, ended⟩ := endRequestFor_frame c .superseded s
    rw [ended]
  unfold carrySubmit
  dsimp only
  rw [writeResult_of_formerEnded, writeResult_of_formerEnded, fitsLocally_of_formerEnded]
  simp only [onChannel_outputs, onChannel_demand, outputs, Four.get_set_same, endRequestFor_nextArrival,
    endRequestFor_requests]
  rfl

end Sys2Proof.Machine
end

section
/-! PROOFS. The order of the demand queue after every command (R100, R105). -/

namespace Sys2Proof.Machine

/-- From one state to another the demand queue keeps its order (R100). -/
def KeepsQueueOrder (s t : State) : Prop := queueInOrder s = true → queueInOrder t = true

section Kept
variable {s t u : State}

theorem KeepsQueueOrder.rfl : KeepsQueueOrder s s := id

theorem KeepsQueueOrder.trans (h : KeepsQueueOrder s t) (h' : KeepsQueueOrder t u) : KeepsQueueOrder s u := h' ∘ h

theorem KeepsQueueOrder.of_demand (h : t.demand = s.demand) : KeepsQueueOrder s t := by
  unfold KeepsQueueOrder queueInOrder
  rw [h]
  exact id

/-- What follows a change elsewhere keeps the order. -/
theorem KeepsQueueOrder.after (h : KeepsQueueOrder t u) (same : t.demand = s.demand) : KeepsQueueOrder s u :=
  KeepsQueueOrder.trans (.of_demand same) h

/-- Requests that leave keep the order of the rest (R100). -/
theorem KeepsQueueOrder.of_sublist (requests : t.demand.requests.Sublist s.demand.requests)
    (arrival : t.demand.nextArrival = s.demand.nextArrival) : KeepsQueueOrder s t := by
  intro order
  obtain ⟨ordered, arrived⟩ := (queueInOrder_iff s).mp order
  refine (queueInOrder_iff t).mpr ⟨ordered.sublist requests, fun r mem => ?_⟩
  rw [arrival]
  exact arrived r (requests.subset mem)

/-- An empty queue is in order. -/
theorem KeepsQueueOrder.of_empty (h : t.demand.requests = []) : KeepsQueueOrder s t :=
  fun _ => (queueInOrder_iff t).mpr (by simp [h])

end Kept

/-! ### Grants, commits, cuts and trips (R106, R107, R110, R122) -/

theorem headRecheck_keepsQueueOrder (s : State) : KeepsQueueOrder s (headRecheck s) := by
  obtain ⟨granted, kept, queue, result, -, -⟩ := headRecheck_grants s
  rw [result]
  refine .of_sublist ?_ rfl
  rw [queue]
  exact List.sublist_append_right granted kept

theorem endRequestFor_keepsQueueOrder (c : Chan) (code : ResultCode) (s : State) :
    KeepsQueueOrder s (endRequestFor c code s) := by
  refine .of_sublist ?_ (endRequestFor_nextArrival c code s)
  rw [endRequestFor_requests]
  exact List.filter_sublist

theorem endAllParked_keepsQueueOrder (s : State) : KeepsQueueOrder s (endAllParked s) := by
  rw [endAllParked_eq]
  exact .of_empty rfl

theorem takeCommitNotice_keepsQueueOrder (owner : Owner) (s : State) :
    KeepsQueueOrder s (takeCommitNotice owner s) := by
  unfold takeCommitNotice
  cases queue : s.demand.requests with
  | nil => exact .rfl
  | cons r rest =>
    dsimp only
    split
    · refine .of_sublist ?_ rfl
      rw [queue]
      exact List.sublist_cons_self r rest
    · exact .rfl

theorem shedCut_keepsQueueOrder (target : Nat) (s : State) : KeepsQueueOrder s (shedCut target s) := by
  unfold shedCut
  split
  · exact .rfl
  · exact (headRecheck_keepsQueueOrder _).after rfl

theorem takeTripRequest_keepsQueueOrder (c : Chan) (s : State) : KeepsQueueOrder s (takeTripRequest c s) := by
  unfold takeTripRequest tripChannel
  split
  · exact ((endRequestFor_keepsQueueOrder c .tripped _).trans (headRecheck_keepsQueueOrder _)).after rfl
  · exact .rfl

theorem takeTripRequests_keepsQueueOrder (s : State) : KeepsQueueOrder s (takeTripRequests s) :=
  (takeTripRequest_keepsQueueOrder 0 s).trans ((takeTripRequest_keepsQueueOrder 1 _).trans
    ((takeTripRequest_keepsQueueOrder 2 _).trans (takeTripRequest_keepsQueueOrder 3 _)))

theorem handTripRequest_keepsQueueOrder (c : Chan) (trip : TripTaking) (s : State) :
    KeepsQueueOrder s (handTripRequest c trip s) := by
  unfold handTripRequest
  split
  · exact .of_demand rfl
  · exact takeTripRequest_keepsQueueOrder c s

/-! ### The head's age and its limit (R108) -/

/-- The age of a request has no part in the order (R100). -/
theorem ageHead_keepsQueueOrder (s : State) : KeepsQueueOrder s (ageHead s) := by
  unfold ageHead
  split
  · cases queue : s.demand.requests with
    | nil => exact .rfl
    | cons r rest =>
      dsimp only
      intro order
      rw [queueInOrder_iff, queue, List.pairwise_cons, List.forall_mem_cons] at order
      obtain ⟨⟨first, ordered⟩, arrived⟩ := order
      exact (queueInOrder_iff _).mpr ⟨List.pairwise_cons.mpr ⟨first, ordered⟩, List.forall_mem_cons.mpr arrived⟩
  · exact .rfl

theorem expireHead_keepsQueueOrder (s : State) : KeepsQueueOrder s (expireHead s) := by
  cases queue : s.demand.requests with
  | nil =>
    rw [expireHead_of_noRequests queue]
    exact .rfl
  | cons r rest =>
    rw [expireHead_cons queue]
    split
    · refine .of_sublist ?_ rfl
      rw [queue]
      exact List.sublist_cons_self r rest
    · exact .rfl

/-! ### The membership controller (R83 to R97) -/

theorem enterMember_keepsQueueOrder (s : State) : KeepsQueueOrder s (enterMember s) :=
  (headRecheck_keepsQueueOrder _).after rfl

theorem enterIsolated_keepsQueueOrder (s : State) : KeepsQueueOrder s (enterIsolated s) := by
  rw [enterIsolated_state]
  exact .of_demand rfl

theorem membershipCheck_keepsQueueOrder (view : Sixteen Row) (s : State) :
    KeepsQueueOrder s (membershipCheck view s) := by
  unfold membershipCheck
  cases s.member.state with
  | isolated =>
    dsimp only
    split
    · exact enterMember_keepsQueueOrder s
    · exact .rfl
  | start | listen | joining | member | parking | parked | fault => exact .of_demand rfl

theorem takeListenExpiry_keepsQueueOrder (s : State) : KeepsQueueOrder s (takeListenExpiry s) := by
  unfold takeListenExpiry
  split
  · exact .of_demand rfl
  · exact .rfl

theorem takeJoinExpiry_keepsQueueOrder (s : State) : KeepsQueueOrder s (takeJoinExpiry s) := by
  unfold takeJoinExpiry
  split
  · exact enterMember_keepsQueueOrder s
  · exact .rfl

theorem takeIsolationExpiry_keepsQueueOrder (s : State) : KeepsQueueOrder s (takeIsolationExpiry s) := by
  unfold takeIsolationExpiry
  split
  · exact enterIsolated_keepsQueueOrder s
  · exact .rfl

theorem takeMemberExpiries_keepsQueueOrder (s : State) : KeepsQueueOrder s (takeMemberExpiries s) :=
  (takeIsolationExpiry_keepsQueueOrder s).trans
    ((takeJoinExpiry_keepsQueueOrder _).trans (takeListenExpiry_keepsQueueOrder _))

theorem unlessNext_keepsQueueOrder (row : Instr) {take : State → State} (h : ∀ s, KeepsQueueOrder s (take s))
    (s : State) : KeepsQueueOrder s (unlessNext row take s) := by
  rcases unlessNext_cases row take s with left | taken
  · rw [left]
    exact .rfl
  · rw [taken]
    exact h s

theorem takeMemberExpiriesNotNext_keepsQueueOrder (s : State) : KeepsQueueOrder s (takeMemberExpiriesNotNext s) :=
  (unlessNext_keepsQueueOrder _ takeIsolationExpiry_keepsQueueOrder s).trans
    ((unlessNext_keepsQueueOrder _ takeJoinExpiry_keepsQueueOrder _).trans
      (unlessNext_keepsQueueOrder _ takeListenExpiry_keepsQueueOrder _))

theorem takeLineWatch_keepsQueueOrder (s : State) : KeepsQueueOrder s (takeLineWatch s) := by
  unfold takeLineWatch
  cases s.member.state with
  | member => exact enterIsolated_keepsQueueOrder s
  | start | listen | joining | isolated | parking | parked | fault => exact .of_demand rfl

theorem takeDuplicate_keepsQueueOrder (s : State) : KeepsQueueOrder s (takeDuplicate s) := by
  by_cases fault : s.member.state = .fault
  · rw [takeDuplicate_of_fault fault]
    exact .rfl
  · rw [takeDuplicate_of_not_fault fault]
    exact .of_empty rfl

/-! ### The peer table and receptions (R4 to R6, R25 to R31) -/

theorem claimArrival_keepsQueueOrder (n : Station) (q : Byte) (c : ClaimBody) (s : State) :
    KeepsQueueOrder s (claimArrival n q c s) := by
  rw [claimArrival_eq]
  split
  · exact (enterMember_keepsQueueOrder _).after rfl
  · exact .of_demand rfl

theorem removeRow_keepsQueueOrder (n : Station) (s : State) : KeepsQueueOrder s (removeRow n s) := by
  unfold removeRow takeEmptyTable
  dsimp only
  split
  · split
    · exact (enterMember_keepsQueueOrder _).after rfl
    · exact .of_demand rfl
  · exact .of_demand rfl

theorem takeFrame_keepsQueueOrder (f : Frame) (s : State) : KeepsQueueOrder s (takeFrame f s) := by
  unfold takeFrame
  cases f with
  | claim n q c =>
    dsimp only
    split
    · exact takeDuplicate_keepsQueueOrder s
    · exact claimArrival_keepsQueueOrder n q c s
  | leave n q code =>
    dsimp only
    split
    · exact takeDuplicate_keepsQueueOrder s
    · exact removeRow_keepsQueueOrder n s

theorem endReception_keepsQueueOrder (s : State) : KeepsQueueOrder s (endReception s) := by
  unfold endReception
  split
  · dsimp only
    split
    · exact .of_demand rfl
    · split
      · exact .of_demand rfl
      · exact (takeFrame_keepsQueueOrder _ _).after rfl
  · exact .rfl

/-! ### Rounds (R7, R46) -/

theorem closeCounts_keepsQueueOrder (order : CloseOrder) (view : Sixteen Row) (s : State) :
    KeepsQueueOrder s (closeCounts order view s) := by
  cases order with
  | ageFirst =>
    exact (ageHead_keepsQueueOrder s).trans ((expireHead_keepsQueueOrder _).trans
      ((membershipCheck_keepsQueueOrder view _).trans (takeMemberExpiries_keepsQueueOrder _)))
  | stateFirst =>
    exact (membershipCheck_keepsQueueOrder view s).trans ((takeMemberExpiries_keepsQueueOrder _).trans
      ((ageHead_keepsQueueOrder _).trans (expireHead_keepsQueueOrder _)))
  | apart =>
    exact (ageHead_keepsQueueOrder s).trans ((unlessNext_keepsQueueOrder _ expireHead_keepsQueueOrder _).trans
      ((membershipCheck_keepsQueueOrder view _).trans (takeMemberExpiriesNotNext_keepsQueueOrder _)))

theorem closeRound_keepsQueueOrder (order : CloseOrder) (s : State) : KeepsQueueOrder s (closeRound order s) := by
  by_cases idle : s.line.idle = true
  · have table : KeepsQueueOrder (takeLeftExpiries s)
        (closeTable (onLine LineInterface.closeRound (takeLeftExpiries s))) := by
      rw [closeTable_eq]
      exact .of_demand rfl
    rw [closeRound_eq order idle]
    exact (expireHead_keepsQueueOrder s).trans ((takeMemberExpiries_keepsQueueOrder _).trans
      (table.trans (closeCounts_keepsQueueOrder order _ _)))
  · rw [show closeRound order s = s from if_neg idle]
    exact .rfl

theorem completed_keepsQueueOrder (s : State) : KeepsQueueOrder s s.completed := by
  have noticed : ∀ o t, KeepsQueueOrder t (noticeCommit o t) := by
    intro o t
    cases o with
    | none => exact .rfl
    | some owner => exact takeCommitNotice_keepsQueueOrder owner t
  have handed : ∀ e t, KeepsQueueOrder t (handShed e t) := by
    intro e t
    unfold handShed
    split
    · exact shedCut_keepsQueueOrder _ t
    · exact .rfl
  exact (KeepsQueueOrder.of_demand (withResults_demand s)).trans ((noticed _ _).trans (handed _ _))

theorem completeShare_keepsQueueOrder (s : State) : KeepsQueueOrder s (completeShare s) := by
  by_cases flight : s.share.flight.isSome = true
  · obtain ⟨l, a, frame⟩ := completeShare_frame flight
    rw [frame]
    exact (completed_keepsQueueOrder s).trans (.of_demand rfl)
  · have none : s.share.flight = none := by simpa using flight
    unfold completeShare
    rw [none]
    exact .rfl

theorem expireLineWatch_keepsQueueOrder (s : State) : KeepsQueueOrder s (expireLineWatch s) := by
  unfold expireLineWatch
  split
  · exact (takeLineWatch_keepsQueueOrder _).after rfl
  · exact .rfl

/-! ### Attempts (R11 to R16) -/

theorem expireDeferral_keepsQueueOrder (s : State) : KeepsQueueOrder s (expireDeferral s) := by
  by_cases first : s.line.idle = true ∧ s.line.deferralExpired = false
  · obtain ⟨idle, unexpired⟩ := first
    obtain ⟨l, a, frame⟩ := tryAttempt_frame s.noteExpiry
    rw [expireDeferral_eq idle unexpired, frame]
    exact .of_demand rfl
  · rw [show expireDeferral s = s from if_neg first]
    exact .rfl

theorem collide_keepsQueueOrder (s : State) : KeepsQueueOrder s (collide s) := by
  unfold collide
  split
  · dsimp only
    split
    · exact .of_demand rfl
    · exact .of_demand rfl
  · exact .rfl

theorem completeTransmit_keepsQueueOrder (s : State) : KeepsQueueOrder s (completeTransmit s) := by
  unfold completeTransmit
  split
  · exact (headRecheck_keepsQueueOrder _).after rfl
  · dsimp only
    split
    · exact .of_demand rfl
    · exact .of_demand rfl
  · exact .rfl
  · exact .rfl

/-! ### Commands (R154) -/

theorem takeCommand_keepsQueueOrder {decision : State → CmdResult × State}
    (h : ∀ s, KeepsQueueOrder s (decision s).2) (code : Byte) (s : State) :
    KeepsQueueOrder s (takeCommand code decision s) := by
  rcases takeCommand_cases code decision s with same | decided
  · rw [same]
    exact .rfl
  · rw [decided]
    exact ((h _).trans (.of_demand rfl)).after rfl

/-- A SUBMIT that ends DONE takes its channel's request from the queue (R103, R104). -/
theorem submitDone_keepsQueueOrder (s : State) (c : Chan) (tag : Byte) (ch : Channel) :
    KeepsQueueOrder s (s.submitDone c tag ch) := .of_sublist List.filter_sublist rfl

/-- A queued SUBMIT takes its channel's former request from the queue and stands in its place (R105). -/
theorem submitQueued_keepsQueueOrder (s : State) (c : Chan) (target : Nat) (priority : Priority) (tag : Byte) :
    KeepsQueueOrder s (s.submitQueued c (s.newRequest c target priority tag)) := by
  intro order
  obtain ⟨ordered, arrived⟩ := (queueInOrder_iff s).mp order
  have earlier : ∀ q ∈ withoutChannel c s.demand.requests, q.arrival < s.demand.nextArrival :=
    fun q mem => arrived q (mem_withoutChannel.mp mem).1
  refine (queueInOrder_iff _).mpr ⟨?_, fun q mem => ?_⟩
  · exact insertRequest_pairwise (ordered.sublist List.filter_sublist) earlier
      fun q mem => (mem_withoutChannel.mp mem).2
  · rcases mem_insertRequest.mp mem with rfl | former
    · exact Nat.lt_succ_self _
    · exact Nat.lt_succ_of_lt (earlier q former)

theorem submit_keepsQueueOrder (s : State) : KeepsQueueOrder s (submit s).2 := by
  unfold submit
  split
  · exact .rfl
  · rw [carrySubmit_eq]
    split
    · split
      · exact (submitDone_keepsQueueOrder s _ _ _).trans (headRecheck_keepsQueueOrder _)
      · exact submitDone_keepsQueueOrder s _ _ _
    · split
      · exact submitDone_keepsQueueOrder s _ _ _
      · exact submitQueued_keepsQueueOrder s _ _ _ _

theorem withdraw_keepsQueueOrder (s : State) : KeepsQueueOrder s (withdraw s).2 := by
  unfold withdraw
  dsimp only
  split
  · exact .rfl
  · split
    · exact .rfl
    · exact endRequestFor_keepsQueueOrder _ _ s

theorem clearTrip_keepsQueueOrder (s : State) : KeepsQueueOrder s (clearTrip s).2 := by
  unfold clearTrip
  dsimp only
  split
  · exact .rfl
  · split
    · exact .of_demand rfl
    · exact .rfl

theorem forget_keepsQueueOrder (s : State) : KeepsQueueOrder s (forget s).2 := by
  unfold forget
  dsimp only
  split
  · exact .rfl
  · split
    · exact removeRow_keepsQueueOrder _ s
    · exact .rfl

theorem park_keepsQueueOrder (s : State) : KeepsQueueOrder s (park s).2 := by
  unfold park
  cases s.member.state with
  | listen => exact (endAllParked_keepsQueueOrder _).after rfl
  | joining | member | isolated =>
    exact ((endAllParked_keepsQueueOrder (emptyAsk (enter .parking s))).trans (.of_demand rfl)).after rfl
  | start | parking | parked | fault => exact .rfl

theorem rejoin_keepsQueueOrder (s : State) : KeepsQueueOrder s (rejoin s).2 := by
  unfold rejoin
  split
  · exact .of_demand rfl
  · exact .rfl

/-! ### Resets and start-up (R139, R149) -/

/-- A reset empties the queue, and a prolonged one finds it as it was. -/
theorem beginReset_keepsQueueOrder (cause : ResetCause) (s : State) : KeepsQueueOrder s (beginReset cause s) := by
  unfold beginReset
  cases s.phase with
  | inReset causes => exact .of_demand rfl
  | startUp | running => exact .of_empty rfl

theorem endReset_keepsQueueOrder (straps : Station) (s : State) : KeepsQueueOrder s (endReset straps s) := by
  unfold endReset
  cases s.phase with
  | inReset causes => exact .of_demand rfl
  | startUp | running => exact .rfl

theorem endStartUp_keepsQueueOrder (s : State) : KeepsQueueOrder s (endStartUp s) := by
  unfold endStartUp
  cases s.phase with
  | startUp =>
    dsimp only
    split
    · exact .of_demand rfl
    · exact .of_demand rfl
  | inReset causes => exact .rfl
  | running => exact .rfl

/-! ### Every command -/

theorem exec_keepsQueueOrder (i : Instr) (s : State) : ∃ t, exec i s = .next t ∧ KeepsQueueOrder s t := by
  by_cases row : isPortOrStoreRow i = true
  · obtain ⟨t, next, x, p, n, rfl, -⟩ := exec_moves row s
    exact ⟨_, next, .of_demand rfl⟩
  cases i with
  | powerOn => exact ⟨_, rfl, beginReset_keepsQueueOrder .power s⟩
  | resetPinAsserted => exact ⟨_, rfl, beginReset_keepsQueueOrder .pin s⟩
  | supplyReset => exact ⟨_, rfl, beginReset_keepsQueueOrder .supply s⟩
  | restart =>
    refine ⟨_, rfl, ?_⟩
    split
    case h_1 code _ => exact takeCommand_keepsQueueOrder (fun _ => .rfl) 8 s
    case h_2 =>
      rcases takeWrite_cases (fun a => decide (a = cmdAddress)) (fun _ t => beginReset .restart t) s with
        same | ⟨a, -, -, taken⟩
      · rw [same]
        exact .rfl
      · rw [taken]
        exact (beginReset_keepsQueueOrder .restart _).after rfl
  | resetEnd straps => exact ⟨_, rfl, endReset_keepsQueueOrder straps s⟩
  | startUpEnd => exact ⟨_, rfl, endStartUp_keepsQueueOrder s⟩
  | receiverReady | synchronisingTransition | startBitConfirmed | characterSlotEnd =>
    exact ⟨_, rfl, .of_demand rfl⟩
  | receptionEnd => exact ⟨_, rfl, endReception_keepsQueueOrder s⟩
  | roundClose order => exact ⟨_, rfl, closeRound_keepsQueueOrder order s⟩
  | leaseExpiry n =>
    refine ⟨_, rfl, ?_⟩
    rcases takeLeaseExpiry_cases n s with same | ⟨taken, -⟩
    · rw [same]
      exact .rfl
    · rw [taken]
      exact .of_demand rfl
  | retireExpiry n =>
    refine ⟨_, rfl, ?_⟩
    rcases takeRetireExpiry_cases n s with same | ⟨taken, -⟩
    · rw [same]
      exact .rfl
    · rw [taken]
      exact .of_demand rfl
  | listenCountExpiry => exact ⟨_, rfl, takeListenExpiry_keepsQueueOrder s⟩
  | joinCountExpiry => exact ⟨_, rfl, takeJoinExpiry_keepsQueueOrder s⟩
  | isolationCountExpiry => exact ⟨_, rfl, takeIsolationExpiry_keepsQueueOrder s⟩
  | askLimitExpiry => exact ⟨_, rfl, expireHead_keepsQueueOrder s⟩
  | shareComputationCompletion => exact ⟨_, rfl, completeShare_keepsQueueOrder s⟩
  | lineWatchExpiry => exact ⟨_, rfl, expireLineWatch_keepsQueueOrder s⟩
  | deferralExpiry => exact ⟨_, rfl, expireDeferral_keepsQueueOrder s⟩
  | collision => exact ⟨_, rfl, collide_keepsQueueOrder s⟩
  | transmitComplete => exact ⟨_, rfl, completeTransmit_keepsQueueOrder s⟩
  | periodStart =>
    refine ⟨_, rfl, ?_⟩
    split
    · exact (takeTripRequests_keepsQueueOrder s).trans (.of_demand rfl)
    · exact .rfl
  | onCountEnd c =>
    refine ⟨_, rfl, ?_⟩
    split
    · exact .of_demand rfl
    · exact .rfl
  | conversionPass =>
    refine ⟨_, rfl, ?_⟩
    split
    · exact (takeTripRequests_keepsQueueOrder s).trans (.of_demand rfl)
    · exact .rfl
  | conversionComplete raw trip =>
    refine ⟨_, rfl, ?_⟩
    split
    · exact .rfl
    · exact .rfl
    · exact (takeTripRequests_keepsQueueOrder s).trans
        ((handTripRequest_keepsQueueOrder _ trip _).after rfl)
  | tripRequest c => exact ⟨_, rfl, takeTripRequest_keepsQueueOrder c s⟩
  | submit => exact ⟨_, rfl, takeCommand_keepsQueueOrder submit_keepsQueueOrder 1 s⟩
  | withdraw => exact ⟨_, rfl, takeCommand_keepsQueueOrder withdraw_keepsQueueOrder 2 s⟩
  | clear => exact ⟨_, rfl, takeCommand_keepsQueueOrder clearTrip_keepsQueueOrder 3 s⟩
  | forget => exact ⟨_, rfl, takeCommand_keepsQueueOrder forget_keepsQueueOrder 4 s⟩
  | park => exact ⟨_, rfl, takeCommand_keepsQueueOrder park_keepsQueueOrder 5 s⟩
  | rejoin => exact ⟨_, rfl, takeCommand_keepsQueueOrder rejoin_keepsQueueOrder 6 s⟩
  | storeWrite | refusedUnknown | writeOperationDone | writeTimeout | supplyLow | storeKey | rawEvents | en
  | registerWrite | readLatch | transactionStart | addressByte | transactionEnd => exact absurd rfl row

theorem passBitTime_keepsQueueOrder (s : State) : KeepsQueueOrder s (passBitTime s) := by
  unfold passBitTime
  split
  · exact .of_demand rfl
  · exact .rfl

/-- The requests of a queue in order are for different channels, and there are four (R100). -/
theorem requests_length_le_four {s : State} (order : queueInOrder s = true) : s.demand.requests.length ≤ 4 := by
  obtain ⟨ordered, -⟩ := (queueInOrder_iff s).mp order
  have distinct : (s.demand.requests.map Request.channel).Nodup :=
    List.pairwise_map.mpr (ordered.imp fun precedes => precedes.2)
  have channels : s.demand.requests.map Request.channel ⊆ ([0, 1, 2, 3] : List Chan) := by
    intro c _
    simpa using chan_cases c
  simpa using (List.subperm_of_subset distinct channels).length_le

end Sys2Proof.Machine

section
open Sys2Proof Sys2Proof.Machine

/-- Settles O55: every command keeps the queue's order by `exec_keepsQueueOrder`, and a queue in order holds at most one
request for each of the four channels. -/
theorem queueOrderIsKept : Obligations.QueueOrderIsKept := by
  intro s t order next
  have result : ∃ u, step s = .next u ∧ KeepsQueueOrder s u := by
    unfold step
    cases s.pending with
    | nil => exact ⟨_, rfl, passBitTime_keepsQueueOrder s⟩
    | cons c rest => exact exec_keepsQueueOrder c (s.withPending rest)
  obtain ⟨u, stepped, keeps⟩ := result
  obtain rfl := Host.Outcome.next.inj (stepped.symm.trans next)
  exact ⟨keeps order, requests_length_le_four (keeps order)⟩

end
end

section
/-! PROOFS. What the commands of the demand queue and a completed CLAIM do to the requests and the channels (R102 to R106,
R109, R126, R135). -/

namespace Sys2Proof.Machine

/-! ### The checks of SUBMIT (R102) -/

/-- A parameter of a SUBMIT is out of its range (R102). -/
def State.submitOutOfRange (s : State) : Prop :=
  3 < s.port.paramSelect.toNat ∨ (s.config.entries.get (s.port.paramSelect.setWidth 2)).max < s.port.paramTarget.toNat
    ∨ 7 < s.port.paramPriority.toNat

/-- The station states in which a SUBMIT on a NORMAL channel is refused (R102). -/
def StationState.refusesSubmit (m : StationState) : Prop := m = .start ∨ m = .parking ∨ m = .parked ∨ m = .fault

section Checks
variable {s : State}

theorem submitRefusal_of_range (range : s.submitOutOfRange) : submitRefusal s = some .refusedRange := if_pos range

theorem submitRefusal_of_tripped (range : ¬s.submitOutOfRange)
    (tripped : (s.outputs.channels.get (s.port.paramSelect.setWidth 2)).tripped = true) :
    submitRefusal s = some .refusedTripped := (if_neg range).trans (if_pos tripped)

/-- Past the range and a NORMAL channel the station state decides. -/
theorem submitRefusal_of_normal (range : ¬s.submitOutOfRange)
    (normal : (s.outputs.channels.get (s.port.paramSelect.setWidth 2)).tripped = false) :
    (s.member.state.refusesSubmit → submitRefusal s = some .refusedState)
      ∧ (¬s.member.state.refusesSubmit → submitRefusal s = none) := by
  unfold State.submitOutOfRange at range
  unfold submitRefusal StationState.refusesSubmit
  dsimp only
  rw [if_neg range, if_neg (by simp [normal])]
  cases s.member.state with
  | start | parking | parked | fault => simp
  | listen | joining | member | isolated => simp

/-- A refused SUBMIT shows its code and changes nothing else (R102, R154). -/
theorem exec_submit_refused {code : CmdResult} (link : s.port.link = .writing cmdAddress)
    (refused : submitRefusal s = some code) : exec .submit s = .next (setResult code (s.cmdTaken 1)) := by
  have decided : Machine.submit (s.cmdTaken 1) = (code, s.cmdTaken 1) := by
    have same : submitRefusal (s.cmdTaken 1) = some code := refused
    unfold Machine.submit
    rw [same]
  rw [exec_submit, execSubmit, takeCommand_at_cmd link, decided]

/-- A SUBMIT that passes its checks is carried on with its parameters and reads ACCEPTED (R102 to R105, R154). -/
theorem exec_submit_accepted (link : s.port.link = .writing cmdAddress) (accepted : submitRefusal s = none) :
    exec .submit s = .next (setResult .accepted (carrySubmit (s.port.paramSelect.setWidth 2) s.port.paramTarget.toNat
      (s.port.paramPriority.setWidth 3) s.port.paramTag (s.cmdTaken 1))) := by
  have decided : Machine.submit (s.cmdTaken 1) = (.accepted, carrySubmit (s.port.paramSelect.setWidth 2)
      s.port.paramTarget.toNat (s.port.paramPriority.setWidth 3) s.port.paramTag (s.cmdTaken 1)) := by
    have same : submitRefusal (s.cmdTaken 1) = none := accepted
    unfold Machine.submit
    rw [same]
    rfl
  rw [exec_submit, execSubmit, takeCommand_at_cmd link, decided]

end Checks

/-! ### The ends of an accepted SUBMIT, one by one (R103 to R105) -/

/-- An accepted SUBMIT changes the demand queue, the channels and the event flags alone. -/
theorem carrySubmit_self (c : Chan) (target : Nat) (priority : Priority) (tag : Byte) (s : State) :
    carrySubmit c target priority tag s = s.withDemand (carrySubmit c target priority tag s).demand
      (carrySubmit c target priority tag s).outputs.channels (carrySubmit c target priority tag s).port.flags := by
  obtain ⟨d, chs, f, frame⟩ := carrySubmit_frame c target priority tag s
  rw [frame]

/-- The request that the parameters of a SUBMIT ask for (R102, R105). -/
def State.paramRequest (s : State) : Request :=
  s.newRequest (s.port.paramSelect.setWidth 2) s.port.paramTarget.toNat (s.port.paramPriority.setWidth 3)
    s.port.paramTag

section Ends
variable {s : State} {c : Chan} {target : Nat} (priority : Priority) (tag : Byte)

theorem carrySubmit_of_below (below : target < (s.outputs.channels.get c).committed) :
    carrySubmit c target priority tag s
      = headRecheck (s.submitDone c tag ((s.uncut c).decrease target priority)) :=
  (carrySubmit_eq c target priority tag s).trans ((if_pos (Nat.le_of_lt below)).trans (if_pos below))

theorem carrySubmit_of_same (same : target = (s.outputs.channels.get c).committed) :
    carrySubmit c target priority tag s = s.submitDone c tag ((s.uncut c).decrease target priority) :=
  (carrySubmit_eq c target priority tag s).trans
    ((if_pos (Nat.le_of_eq same)).trans (if_neg (Nat.not_lt.mpr (Nat.le_of_eq same.symm))))

theorem carrySubmit_of_fits (high : (s.outputs.channels.get c).committed < target)
    (fits : fitsLocally s c target = true) :
    carrySubmit c target priority tag s = s.submitDone c tag ((s.uncut c).grantLocally target priority) :=
  (carrySubmit_eq c target priority tag s).trans ((if_neg (Nat.not_le.mpr high)).trans (if_pos fits))

theorem carrySubmit_of_unfit (high : (s.outputs.channels.get c).committed < target)
    (unfit : ¬fitsLocally s c target = true) :
    carrySubmit c target priority tag s = s.submitQueued c (s.newRequest c target priority tag) :=
  (carrySubmit_eq c target priority tag s).trans ((if_neg (Nat.not_le.mpr high)).trans (if_neg unfit))

end Ends

/-! ### A channel that a head re-check does not reach (R106) -/

/-- A channel without a request among those granted keeps its record. -/
theorem raisedBy_get_of_other {rs : List Request} (chs : Four Channel) {c : Chan} (h : ∀ q ∈ rs, q.channel ≠ c) :
    (raisedBy rs chs).get c = chs.get c := by
  induction rs generalizing chs with
  | nil => rfl
  | cons r rest ih =>
    obtain ⟨first, others⟩ := List.forall_mem_cons.mp h
    exact (ih _ others).trans (Four.get_set_other _ _ _ _ first.symm)

/-- From one state to another one channel and its last result stay, no request comes, and a RESULT that is set stays
set. -/
structure LeavesChannel (c : Chan) (s t : State) : Prop where
  channel : t.outputs.channels.get c = s.outputs.channels.get c
  lastResult : t.demand.lastResults.get c = s.demand.lastResults.get c
  requests : ∀ r ∈ t.demand.requests, r ∈ s.demand.requests
  result : flagSet .result s = true → flagSet .result t = true

theorem LeavesChannel.rfl {c : Chan} {s : State} : LeavesChannel c s s :=
  ⟨Eq.refl _, Eq.refl _, fun _ => id, id⟩

theorem headRecheck_leavesChannel {c : Chan} {s : State} (h : ∀ r ∈ s.demand.requests, r.channel ≠ c) :
    LeavesChannel c s (headRecheck s) := by
  have flags : flagSet .result s = true → flagSet .result (headRecheck s) = true := by
    intro set
    rw [(headRecheck_resultTracks s).2, set, Bool.true_or]
  obtain ⟨granted, kept, queue, parts, -, -⟩ := headRecheck_grants s
  have others : ∀ q ∈ granted, q.channel ≠ c := fun q mem => h q (by simp [queue, mem])
  rw [parts] at flags ⊢
  exact ⟨raisedBy_get_of_other _ others, endedBy_get_of_other .done _ others,
    fun r mem => by simp [queue, show r ∈ kept from mem], flags⟩

/-! ### SUBMIT at or below the level (R103, R116, R120) -/

/-- A decrease of a channel whose gate level is not below the target releases the gate (R120). -/
theorem Channel.decrease_eq (target : Nat) (priority : Priority) (ch : Channel) :
    ch.decrease target priority = { ch with
      committed := target
      priority := if 0 < target then priority else ch.priority
      gate := match ch.gate with
        | none => none
        | some g => if target ≤ g then none else some g } := by
  have gate : (ch.lowerTo target).gate = match ch.gate with
      | none => none
      | some g => if target ≤ g then none else some g := by
    unfold Channel.lowerTo
    cases ch.gate with
    | none => rfl
    | some g => rfl
  rw [← gate]
  unfold Channel.decrease
  dsimp only
  split
  · rfl
  · rfl

/-- With or without its head re-check a decrease leaves its own channel at the target and its request gone. -/
theorem carrySubmit_leavesChannel {c : Chan} {target : Nat} {s : State} (priority : Priority) (tag : Byte)
    (low : target ≤ (s.outputs.channels.get c).committed) :
    LeavesChannel c (s.submitDone c tag ((s.uncut c).decrease target priority))
      (carrySubmit c target priority tag s) := by
  rcases Nat.lt_or_eq_of_le low with below | same
  · rw [carrySubmit_of_below priority tag below]
    exact headRecheck_leavesChannel fun r mem => (mem_withoutChannel.mp mem).2
  · rw [carrySubmit_of_same priority tag same]
    exact .rfl

/-- A decrease below the level grants the heads that fit with the level it leaves (R106). -/
theorem carrySubmit_grants {c : Chan} {target : Nat} {s : State} (priority : Priority) (tag : Byte)
    (below : target < (s.outputs.channels.get c).committed) :
    HeadsGranted (s.submitDone c tag ((s.uncut c).decrease target priority)) (carrySubmit c target priority tag s) := by
  rw [carrySubmit_of_below priority tag below]
  exact headRecheck_grants _

/-- A flag whose mask has been taken into the flag word is set (R158). -/
theorem flagSet_of_mask {e : Event} {t : State} {f : BitVec 9} (h : t.port.flags = f ||| e.mask) :
    flagSet e t = true := by
  simp [flagSet, h, Event.getLsbD_mask]

/-! ### A former request (R103, R112) -/

/-- The last results after the request of a channel has ended, where one was queued. -/
theorem endRequestFor_lastResults (c : Chan) (code : ResultCode) (s : State) :
    (endRequestFor c code s).demand.lastResults = match requestFor c s.demand.requests with
      | none => s.demand.lastResults
      | some r => s.demand.lastResults.set c { tag := r.tag, code := code } := by
  cases h : requestFor c s.demand.requests with
  | none => rw [endRequestFor_of_none code h]
  | some r => rw [endRequestFor_of_some code h]; rfl

/-- The demand queue that a queued SUBMIT leaves (R103, R105, R112). -/
theorem submitQueued_demand (s : State) (c : Chan) (r : Request) : (s.submitQueued c r).demand = {
    requests := insertRequest r (withoutChannel c s.demand.requests)
    lastResults := match requestFor c s.demand.requests with
      | none => s.demand.lastResults
      | some q => s.demand.lastResults.set c { tag := q.tag, code := .superseded }
    nextArrival := s.demand.nextArrival + 1 } := by
  rw [← endRequestFor_lastResults]
  rfl

/-- The other channels keep their last results (R112). -/
theorem endRequestFor_lastResults_other {c d : Chan} (code : ResultCode) (s : State) (other : d ≠ c) :
    (endRequestFor c code s).demand.lastResults.get d = s.demand.lastResults.get d := by
  cases h : requestFor c s.demand.requests with
  | none => rw [endRequestFor_of_none code h]
  | some r =>
    rw [endRequestFor_of_some code h]
    exact Four.get_set_other _ _ _ _ other

/-- RESULT is set exactly where a request was queued to end (R113). -/
theorem endRequestFor_flags (c : Chan) (code : ResultCode) (s : State) :
    (endRequestFor c code s).port.flags
      = if requestFor c s.demand.requests = none then s.port.flags else s.port.flags ||| Event.result.mask := by
  cases h : requestFor c s.demand.requests with
  | none => rw [endRequestFor_of_none code h, if_pos rfl]
  | some r => rw [endRequestFor_of_some code h, if_neg (by simp)]; rfl

/-! ### WITHDRAW and CLEAR (R109, R126) -/

section Commands
variable {s : State}

theorem withdraw_of_range (range : 3 < s.port.paramSelect.toNat) : withdraw s = (.refusedRange, s) := if_pos range

theorem withdraw_of_none (range : s.port.paramSelect.toNat ≤ 3)
    (h : requestFor (s.port.paramSelect.setWidth 2) s.demand.requests = none) : withdraw s = (.refusedState, s) :=
  (if_neg (Nat.not_lt.mpr range)).trans (if_pos h)

theorem withdraw_of_some {r : Request} (range : s.port.paramSelect.toNat ≤ 3)
    (h : requestFor (s.port.paramSelect.setWidth 2) s.demand.requests = some r) :
    withdraw s = (.accepted, writeResult (s.port.paramSelect.setWidth 2) r.tag .withdrawn
      (setRequests (withoutChannel (s.port.paramSelect.setWidth 2) s.demand.requests) s)) := by
  rw [← endRequestFor_of_some .withdrawn h]
  exact (if_neg (Nat.not_lt.mpr range)).trans (if_neg (by simp [h]))

theorem clearTrip_of_range (range : 3 < s.port.paramSelect.toNat) : clearTrip s = (.refusedRange, s) := if_pos range

theorem clearTrip_of_normal (range : s.port.paramSelect.toNat ≤ 3)
    (normal : (s.outputs.channels.get (s.port.paramSelect.setWidth 2)).tripped = false) :
    clearTrip s = (.refusedState, s) :=
  (if_neg (Nat.not_lt.mpr range)).trans (if_neg (by simp [normal]))

theorem clearTrip_of_tripped (range : s.port.paramSelect.toNat ≤ 3)
    (tripped : (s.outputs.channels.get (s.port.paramSelect.setWidth 2)).tripped = true) :
    clearTrip s = (.accepted, onSense (s.port.paramSelect.setWidth 2) (fun x => { x with overdrawCount := 0 })
      (onChannel (s.port.paramSelect.setWidth 2) Channel.clear s)) :=
  (if_neg (Nat.not_lt.mpr range)).trans (if_pos tripped)

end Commands

/-! ### A completed CLAIM (R16, R64, R106, R120) -/

/-- A CLAIM has completed: it is the own record, and the gates are released; the head re-check is still to come. -/
def State.claimCompleted (s : State) (sequence : Byte) (b : ClaimBody) : State :=
  onChannels (Four.map Channel.release)
    (setOwn (some { body := b, sequence := sequence, completed := true }) (onLine LineInterface.complete s))

theorem exec_transmitComplete_claim {s : State} {n : Station} {q : Byte} {b : ClaimBody}
    (sending : s.line.transmitter = .sending (.claim n q b)) :
    exec .transmitComplete s = .next (headRecheck (s.claimCompleted q b)) := by
  rw [exec_transmitComplete, execTransmitComplete, completeTransmit, sending]
  rfl

theorem claimCompleted_channel (s : State) (q : Byte) (b : ClaimBody) (c : Chan) :
    (s.claimCompleted q b).outputs.channels.get c = { s.outputs.channels.get c with gate := none } :=
  Four.get_map Channel.release s.outputs.channels c

/-- After a completed CLAIM a request fits within the bound that the frame announces (R86, R104). -/
theorem claimCompleted_fits (s : State) (q : Byte) (b : ClaimBody) (r : Request) :
    fitsLocally (s.claimCompleted q b) r.channel r.target = true ↔
      s.member.state = .member ∧ s.share.hold = false ∧ s.share.shortfall.mark = false
        ∧ committedTotal s.outputs.channels - (s.outputs.channels.get r.channel).committed + r.target
          ≤ (if b.joining then b.held else max b.held b.floor) := by
  rw [fitsLocally_iff, fitsAt, claimCompleted_channel]
  rfl

/-- A head re-check of one request grants it where it fits (R106). -/
theorem headRecheck_of_one {s : State} {r : Request} (queue : s.demand.requests = [r]) :
    headRecheck s = if fitsLocally s r.channel r.target then grantHead r (setRequests [] s) else s := by
  unfold headRecheck
  rw [queue]
  simp [recheckHeads, queue]

end Sys2Proof.Machine

section
open Sys2Proof Sys2Proof.Machine

/-- Settles O40: each check has its lemma, in the order of the checks. -/
theorem submitIsCheckedInOrder : Obligations.SubmitIsCheckedInOrder := by
  intro s link
  refine ⟨fun range => ?_, fun range tripped => ?_, fun range normal closed => ?_, fun range normal isOpen => ?_⟩
  · exact exec_submit_refused link (submitRefusal_of_range range)
  · exact exec_submit_refused link (submitRefusal_of_tripped range tripped)
  · exact exec_submit_refused link ((submitRefusal_of_normal range normal).1 closed)
  · exact ⟨_, exec_submit_accepted link ((submitRefusal_of_normal range normal).2 isOpen), rfl,
      congrArg (fun t => t.port.cmd) (carrySubmit_self _ _ _ _ (s.cmdTaken 1))⟩

/-- Settles O43: the checks of each command in their order, and then what the accepted one does. -/
theorem withdrawAndClearActOnTheirChannel : Obligations.WithdrawAndClearActOnTheirChannel := by
  refine ⟨fun s link => ?withdraw, fun s link => ?clear⟩
  case withdraw =>
    rw [exec_withdraw, execWithdraw, takeCommand_at_cmd link]
    refine ⟨fun range => ?_, fun range unqueued => ?_, fun range r queued => ?_⟩
    · rw [withdraw_of_range (s := s.cmdTaken 2) range]
      rfl
    · rw [withdraw_of_none (s := s.cmdTaken 2) range (requestFor_eq_none_iff.mpr unqueued)]
      rfl
    · rw [withdraw_of_some (s := s.cmdTaken 2) range queued]
      rfl
  case clear =>
    rw [exec_clear, execClear, takeCommand_at_cmd link]
    refine ⟨fun range => ?_, fun range normal => ?_, fun range tripped => ?_⟩
    · rw [clearTrip_of_range (s := s.cmdTaken 3) range]
      rfl
    · rw [clearTrip_of_normal (s := s.cmdTaken 3) range normal]
      rfl
    · rw [clearTrip_of_tripped (s := s.cmdTaken 3) range tripped]
      rfl

/-- Settles O41: the channel's own clauses by `LeavesChannel`, whether or not a head re-check follows, and the rest by
whether the target is below the level. -/
theorem submitAtOrBelowTheLevelIsADecrease : Obligations.SubmitAtOrBelowTheLevelIsADecrease := by
  intro s link accepted low
  obtain ⟨channel, lastResult, requests, result⟩ :=
    carrySubmit_leavesChannel (s := s.cmdTaken 1) (s.port.paramPriority.setWidth 3) s.port.paramTag low
  refine ⟨_, exec_submit_accepted link accepted,
    congrArg (setResult .accepted) (carrySubmit_self _ _ _ _ (s.cmdTaken 1)), ?channel, ?lastResult, ?result,
    ?requests, ?same, ?below⟩
  case channel =>
    refine channel.trans ((Four.get_set_same _ _ _).trans ?_)
    rw [Channel.decrease_eq]
    rfl
  case lastResult => exact lastResult.trans (Four.get_set_same _ _ _)
  case result => exact result (flagSet_of_mask rfl)
  case requests => exact fun r mem => (mem_withoutChannel.mp (requests r mem)).symm
  case same =>
    intro same
    rw [carrySubmit_of_same (s := s.cmdTaken 1) _ _ same]
    exact ⟨rfl, rfl, fun d other => Four.get_set_other _ _ _ _ other⟩
  case below =>
    intro below
    have granted := (carrySubmit_grants (s := s.cmdTaken 1) (s.port.paramPriority.setWidth 3) s.port.paramTag
      below).setResult .accepted
    rw [Channel.decrease_eq] at granted
    exact granted

/-- Settles O42: by whether the target fits; a former request shows only in the flags and the last results. -/
theorem submitAboveTheLevelIsGrantedOrQueued : Obligations.SubmitAboveTheLevelIsGrantedOrQueued := by
  intro s link accepted high
  have fits_iff := fitsLocally_iff (s.cmdTaken 1) s.paramRequest
  refine ⟨_, exec_submit_accepted link accepted,
    congrArg (setResult .accepted) (carrySubmit_self _ _ _ _ (s.cmdTaken 1)), ?_⟩
  by_cases fits : fitsLocally (s.cmdTaken 1) (s.port.paramSelect.setWidth 2) s.port.paramTarget.toNat = true
  · have fitting := fits_iff.mp fits
    rw [carrySubmit_of_fits (s := s.cmdTaken 1) _ _ high fits]
    refine ⟨(if_pos (.inl fitting)).symm, fun d other => ?_, fun _ => ?_, fun unfit => absurd fitting unfit⟩
    · exact ⟨Four.get_set_other _ _ _ _ other, Four.get_set_other _ _ _ _ other⟩
    · exact ⟨Four.get_set_same _ _ _, rfl, flagSet_of_mask rfl⟩
  · have unfitting := fun h => fits (fits_iff.mpr h)
    rw [carrySubmit_of_unfit (s := s.cmdTaken 1) _ _ high fits]
    refine ⟨?flags, fun d other => ?others, fun fitting => absurd fitting unfitting, fun _ => ?queued⟩
    case flags =>
      refine (endRequestFor_flags _ .superseded (s.cmdTaken 1)).trans ?_
      by_cases former : requestFor (s.port.paramSelect.setWidth 2) s.demand.requests = none
      · refine (if_pos former).trans (if_neg ?_).symm
        rintro (fitting | queued)
        · exact unfitting fitting
        · exact requestFor_ne_none_iff.mpr queued former
      · exact (if_neg former).trans (if_pos (.inr (requestFor_ne_none_iff.mp former))).symm
    case others => exact ⟨Four.get_set_other _ _ _ _ other, endRequestFor_lastResults_other .superseded _ other⟩
    case queued =>
      obtain ⟨before, after, inserted, split, above, below⟩ := insertRequest_place (r := s.paramRequest)
        (rs := withoutChannel (s.port.paramSelect.setWidth 2) s.demand.requests)
      refine ⟨Four.get_set_same _ _ _, ?demand, fun former => ?result, before, after, inserted, split, above,
        fun order => ?place⟩
      case demand => exact submitQueued_demand (s.cmdTaken 1) _ _
      case result =>
        exact flagSet_of_mask ((endRequestFor_flags _ .superseded (s.cmdTaken 1)).trans
          (if_neg (requestFor_ne_none_iff.mpr former)))
      case place => exact below (((queueInOrder_iff s).mp order).1.sublist List.filter_sublist)

/-- Settles O35: with one request by `headRecheck_of_one`, and with any by what a head re-check grants. -/
theorem completionGrantsAHeadThatFits : Obligations.CompletionGrantsAHeadThatFits := by
  refine ⟨?one, ?any⟩
  case one =>
    intro s n q b r sending queue
    have rechecked := headRecheck_of_one (s := s.claimCompleted q b) queue
    refine ⟨_, exec_transmitComplete_claim sending, fun fits => ?_, fun unfit => ?_⟩
    · rw [if_pos ((claimCompleted_fits s q b r).mpr fits)] at rechecked
      rw [rechecked]
      refine ⟨rfl, (Four.get_set_same _ _ _).trans ?_, flagSet_of_mask rfl⟩
      exact congrArg (Channel.grantLocally r.target r.priority) (claimCompleted_channel s q b r.channel)
    · rw [if_neg fun fits => unfit ((claimCompleted_fits s q b r).mp fits)] at rechecked
      rw [rechecked]
      exact ⟨rfl, claimCompleted_channel s q b r.channel⟩
  case any =>
    intro s n q b sending
    exact ⟨_, s.claimCompleted q b, exec_transmitComplete_claim sending, headRecheck_grants _, rfl,
      claimCompleted_channel s q b⟩

end
end

section
/-! PROOFS. What the levels, the gates and the announced bound rest on, and each single change that a command can make
there (R20, R64 to R73, R84 to R97, R103 to R107, R115 to R127). -/

namespace Sys2Proof.Machine

/-! ### What decides the draw -/

/-- What a queued request wants: a target for its channel. -/
def Request.want (r : Request) : Chan × Nat := (r.channel, r.target)

/-- The part of a state that the conditions on levels, gates and the announced bound look at (R115, R119, R125). -/
structure Draw where
  config : Configuration
  channels : Four Channel
  wants : List (Chan × Nat)
  state : StationState
  transmitter : Transmitter
  own : Option OwnRecord
  /-- a share computation is in flight -/
  computing : Bool
  /-- the snapshot shows an own frame completed in its round -/
  heardItself : Bool
  /-- the ask record holds an ask -/
  asks : Bool

/-- The draw of a state. -/
def State.draw (s : State) : Draw where
  config := s.config
  channels := s.outputs.channels
  wants := s.demand.requests.map Request.want
  state := s.member.state
  transmitter := s.line.transmitter
  own := s.share.own
  computing := s.share.flight.isSome
  heardItself := s.share.snapshot.ownCompleted
  asks := decide (s.share.ask.state ≠ .none)

/-! ### A single change -/

/-- A channel record that stands at or below another in all that it draws, gated or tripped only where that one is. -/
structure Channel.Lowers (ch low : Channel) : Prop where
  committed : low.committed ≤ ch.committed
  applied : low.applied ≤ ch.applied
  toApply : low.levelToApply ≤ ch.levelToApply
  gate : ch.gate = none → low.gate = none
  tripped : low.tripped = true → ch.tripped = true

/-- What a frame says of the draw when its attempt begins: a CLAIM announces what is applied and committed (R66), a LEAVE
goes from PARKING with nothing applied (R20). -/
def Draw.Promises (d : Draw) : Frame → Prop
  | .claim _ _ b => appliedTotal d.channels ≤ b.bound ∧ committedTotal d.channels ≤ b.bound
  | .leave _ _ _ => d.state = .parking ∧ appliedTotal d.channels = 0

/-- The entries to a station state, with what has gone before each of them (R83 to R97). -/
inductive Draw.Enters (d : Draw) : StationState → Prop
  | joining (was : d.state = .listen ∨ d.state = .parked) : Draw.Enters d .joining
  | member (was : d.state = .joining ∨ d.state = .isolated) : Draw.Enters d .member
  | isolated (was : d.state = .member) (asks : d.asks = false) (cut : committedTotal d.channels ≤ d.config.floor) :
      Draw.Enters d .isolated
  | parking (was : d.state = .joining ∨ d.state = .member ∨ d.state = .isolated) (asks : d.asks = false)
      (cut : committedTotal d.channels = 0) : Draw.Enters d .parking
  | parked (was : d.state = .listen) : Draw.Enters d .parked
  | fault (silent : d.transmitter = .silent) (asks : d.asks = false) (cut : committedTotal d.channels = 0)
      (forced : appliedTotal d.channels = 0) : Draw.Enters d .fault

/-- One change to the draw. Every command but a reset and the end of start-up makes a run of these. -/
inductive Draw.Step (d : Draw) : Draw → Prop
  /-- Requests leave the queue, age, or change places (R105 to R112). -/
  | dropped (ws : List (Chan × Nat)) (sub : ∀ w ∈ ws, w ∈ d.wants) : Draw.Step d { d with wants := ws }
  /-- A SUBMIT that passed its checks wants its target (R102). -/
  | wanted (c : Chan) (target : Nat) (normal : (d.channels.get c).tripped = false)
      (within : target ≤ (d.config.entries.get c).max) : Draw.Step d { d with wants := (c, target) :: d.wants }
  /-- Channels are lowered: by a decrease, a cut, a CLEAR, or FAULT (R103, R121, R126, R127). -/
  | lowered (chs : Four Channel) (lowers : ∀ c, (d.channels.get c).Lowers (chs.get c)) :
      Draw.Step d { d with channels := chs }
  /-- A channel trips, its request ended (R110, R125). -/
  | tripped (c : Chan) (ended : ∀ w ∈ d.wants, w.1 ≠ c) :
      Draw.Step d { d with channels := d.channels.set c (d.channels.get c).trip }
  /-- A request is granted within what is announced (R104, R106). -/
  | granted (c : Chan) (target : Nat) (priority : Priority) (want : (c, target) ∈ d.wants) (member : d.state = .member)
      (record : neededTotal d.channels c target ≤ recordBound d.own)
      (flight : ∀ n q b, d.transmitter = .sending (.claim n q b) → neededTotal d.channels c target ≤ b.bound) :
      Draw.Step d { d with channels := d.channels.set c ((d.channels.get c).grantLocally target priority) }
  /-- A period starts (R117). -/
  | periodStarted :
      Draw.Step d { d with channels := Four.zipWith Channel.startPeriod d.config.entries d.channels }
  /-- A share computation completes without a commit (R46). -/
  | resultsTaken : Draw.Step d { d with computing := false }
  /-- A share computation commits an own ask that the snapshot shows sent (R73, R107). -/
  | committed (c : Chan) (target : Nat) (priority : Priority) (want : (c, target) ∈ d.wants)
      (computing : d.computing = true) (heard : d.heardItself = true) (asks : d.asks = true) :
      Draw.Step d { d with
        channels := d.channels.set c ((d.channels.get c).commit target priority), computing := false }
  /-- The ask record is emptied, or taken up by a MEMBER (R68, R69, R75). -/
  | asked (b : Bool) (may : b = false ∨ d.state = .member) : Draw.Step d { d with asks := b }
  /-- The station enters a state (R83 to R97). -/
  | entered (st : StationState) (enters : d.Enters st) : Draw.Step d { d with state := st }
  /-- The transmitter stops (R14, R97). -/
  | stopped (t : Transmitter) (still : ∀ f, t ≠ .sending f) : Draw.Step d { d with transmitter := t }
  /-- A round close starts a share computation, with nothing in flight on the line (R43). -/
  | computationStarted (still : ∀ f, d.transmitter ≠ .sending f) :
      Draw.Step d { d with
        own := d.own.map fun o => { o with completed := false }
        computing := true
        heardItself := match d.own with | none => false | some o => o.completed }
  /-- An attempt begins, with no share computation in flight (R11, R13, R66, R70). -/
  | attempted (f : Frame) (computing : d.computing = false) (promises : d.Promises f) :
      Draw.Step d { d with transmitter := .sending f }
  /-- A CLAIM completes: it is the own record, and every gate is released (R64, R120). -/
  | claimCompleted (n : Station) (q : Byte) (b : ClaimBody) (sending : d.transmitter = .sending (.claim n q b)) :
      Draw.Step d { d with
        transmitter := .idle, own := some { body := b, sequence := q, completed := true }
        channels := d.channels.map Channel.release }
  /-- A LEAVE completes: there is no own record (R64, R95). -/
  | leaveCompleted (n : Station) (q : Byte) (code : Half) (sending : d.transmitter = .sending (.leave n q code)) :
      Draw.Step d { d with
        transmitter := .idle, own := none, state := if d.state = .parking then .parked else d.state }

/-- A run of changes leads from the draw of one state to that of another. -/
def DrawSteps (s t : State) : Prop := Relation.ReflTransGen Draw.Step s.draw t.draw

section Runs
variable {s t u : State}

theorem DrawSteps.of_same (h : t.draw = s.draw) : DrawSteps s t := by
  unfold DrawSteps
  rw [h]

theorem DrawSteps.rfl : DrawSteps s s := Relation.ReflTransGen.refl

theorem DrawSteps.trans (h : DrawSteps s t) (h' : DrawSteps t u) : DrawSteps s u := Relation.ReflTransGen.trans h h'

theorem DrawSteps.single (h : s.draw.Step t.draw) : DrawSteps s t := Relation.ReflTransGen.single h

/-- A run from a state that draws the same. -/
theorem DrawSteps.after (h : DrawSteps t u) (same : t.draw = s.draw) : DrawSteps s u := (DrawSteps.of_same same).trans h

/-- Requests leave the queue and nothing else changes the draw. -/
theorem DrawSteps.of_dropped {ws : List (Chan × Nat)} (h : t.draw = { s.draw with wants := ws })
    (sub : ∀ w ∈ ws, w ∈ s.draw.wants) : DrawSteps s t := by
  refine .single ?_
  rw [h]
  exact .dropped ws sub

/-- Channels are lowered and nothing else changes the draw. -/
theorem DrawSteps.of_lowered {chs : Four Channel} (h : t.draw = { s.draw with channels := chs })
    (lowers : ∀ c, (s.outputs.channels.get c).Lowers (chs.get c)) : DrawSteps s t := by
  refine .single ?_
  rw [h]
  exact .lowered chs lowers

end Runs

/-! ### Channels that are lowered -/

theorem Four.get_set {α : Type} (x : Four α) (i j : Chan) (a : α) :
    (x.set i a).get j = if j = i then a else x.get j := by
  by_cases h : j = i
  · rw [h, Four.get_set_same, if_pos rfl]
  · rw [Four.get_set_other _ _ _ _ h, if_neg h]

/-- A property of every channel after one has been replaced. -/
theorem forall_get_set {P : Chan → Channel → Prop} {chs : Four Channel} {c : Chan} {ch : Channel}
    (others : ∀ e, P e (chs.get e)) (new : P c ch) (e : Chan) : P e ((chs.set c ch).get e) := by
  rw [Four.get_set]
  split
  case isTrue same => exact same ▸ new
  case isFalse => exact others e

theorem Channel.Lowers.rfl {ch : Channel} : ch.Lowers ch := ⟨le_rfl, le_rfl, le_rfl, id, id⟩

theorem Channel.Lowers.trans {ch low lower : Channel} (h : ch.Lowers low) (h' : low.Lowers lower) : ch.Lowers lower :=
  ⟨h'.committed.trans h.committed, h'.applied.trans h.applied, h'.toApply.trans h.toApply, h'.gate ∘ h.gate,
    h.tripped ∘ h'.tripped⟩

/-- One channel lowered, the others as they were. -/
theorem lowers_set {chs : Four Channel} {c : Chan} {low : Channel} (h : (chs.get c).Lowers low) (d : Chan) :
    (chs.get d).Lowers ((chs.set c low).get d) :=
  forall_get_set (P := fun e low => (chs.get e).Lowers low) (fun _ => .rfl) h d

theorem Channel.decrease_lowers {target : Nat} {ch : Channel} (priority : Priority) (h : target ≤ ch.committed) :
    ch.Lowers (ch.decrease target priority) := by
  have toApply : (ch.decrease target priority).levelToApply = (ch.lowerTo target).levelToApply := by
    unfold Channel.decrease
    dsimp only
    split <;> rfl
  rw [Channel.decrease_eq] at toApply ⊢
  refine ⟨h, le_rfl, toApply ▸ ch.lowerTo_levelToApply_le target h, fun none => ?_, id⟩
  dsimp only
  rw [none]

theorem cutTo_lowers (target : Nat) (chs : Four Channel) (c : Chan) : (chs.get c).Lowers ((cutTo target chs).get c) := by
  obtain ⟨committed, toApply, applied, -, tripped, -, -, gate⟩ := cutTo_get target chs c
  exact ⟨committed, applied.le, toApply, gate, fun t => tripped ▸ t⟩

/-- A TRIPPED channel that is cleared applies nothing before and after (R117, R126). -/
theorem Channel.clear_lowers (ch : Channel) : ch.Lowers ch.clear :=
  ⟨Nat.zero_le _, Nat.zero_le _, Nat.le_trans ch.clear.levelToApply_le (Nat.zero_le _), id, fun t => nomatch t⟩

theorem Channel.force_lowers (ch : Channel) : ch.Lowers ch.force :=
  ⟨Nat.zero_le _, Nat.zero_le _, Nat.le_trans ch.force.levelToApply_le (Nat.zero_le _), fun _ => Eq.refl _, id⟩

/-- Output and on count have no part in what a channel draws. -/
theorem Channel.endOnCount_lowers (ch : Channel) : ch.Lowers ch.endOnCount := by
  unfold Channel.endOnCount
  split
  · exact ⟨le_rfl, le_rfl, le_rfl, id, id⟩
  · exact .rfl

end Sys2Proof.Machine
end

section
/-! PROOFS. What each command changes in the draw of the station. -/

namespace Sys2Proof.Machine

/-! ### The demand queue (R104 to R112) -/

/-- A grant stays within the own record's bound and within that of a CLAIM in flight (R104). -/
theorem fitsLocally_bounds {s : State} {c : Chan} {target : Nat} (h : fitsLocally s c target = true) :
    s.member.state = .member ∧ neededTotal s.outputs.channels c target ≤ recordBound s.share.own
      ∧ ∀ n q b, s.line.transmitter = .sending (.claim n q b) →
          neededTotal s.outputs.channels c target ≤ b.bound := by
  obtain ⟨member, -, -, fits⟩ := of_decide_eq_true h
  have record : announcedBound s ≤ recordBound s.share.own := by
    unfold announcedBound
    split
    · exact Nat.min_le_left _ _
    · exact le_rfl
  refine ⟨member, fits.trans record, fun n q b sending => fits.trans ?_⟩
  unfold announcedBound
  rw [sending]
  exact Nat.min_le_right _ _

/-- A granted head raises its channel and leaves the queue (R106). -/
theorem grantHead_drawSteps {s : State} {r : Request} {rest : List Request} (queue : s.demand.requests = r :: rest)
    (fits : fitsLocally s r.channel r.target = true) : DrawSteps s (grantHead r (setRequests rest s)) := by
  obtain ⟨member, record, flight⟩ := fitsLocally_bounds fits
  have wants : s.draw.wants = r.want :: rest.map Request.want := congrArg (List.map Request.want) queue
  have want : (r.channel, r.target) ∈ s.draw.wants := by
    rw [wants]
    exact List.mem_cons_self
  refine Relation.ReflTransGen.tail (.single (.granted r.channel r.target r.priority want member record flight))
    (.dropped (rest.map Request.want) fun w mem => ?_)
  show w ∈ s.draw.wants
  rw [wants]
  exact List.mem_cons_of_mem _ mem

theorem headRecheck_drawSteps (s : State) : DrawSteps s (headRecheck s) :=
  headRecheck_induction (DrawSteps s) (fun _ _ _ run queue fits => run.trans (grantHead_drawSteps queue fits)) s .rfl

theorem endRequestFor_draw (c : Chan) (code : ResultCode) (s : State) : (endRequestFor c code s).draw
    = { s.draw with wants := (withoutChannel c s.demand.requests).map Request.want } := by
  have requests := endRequestFor_requests c code s
  obtain ⟨d, f, frame⟩ := endRequestFor_frame c code s
  rw [frame] at requests ⊢
  rw [← requests]
  rfl

/-- The wants of the other channels. -/
theorem mem_wants_withoutChannel {c : Chan} {rs : List Request} {w : Chan × Nat}
    (h : w ∈ (withoutChannel c rs).map Request.want) : w ∈ rs.map Request.want ∧ w.1 ≠ c := by
  obtain ⟨r, mem, rfl⟩ := List.mem_map.mp h
  obtain ⟨queued, other⟩ := mem_withoutChannel.mp mem
  exact ⟨List.mem_map_of_mem queued, other⟩

theorem endRequestFor_drawSteps (c : Chan) (code : ResultCode) (s : State) : DrawSteps s (endRequestFor c code s) :=
  .of_dropped (endRequestFor_draw c code s) fun _ mem => (mem_wants_withoutChannel mem).1

theorem shedCut_drawSteps (target : Nat) (s : State) : DrawSteps s (shedCut target s) := by
  unfold shedCut
  split
  · exact .rfl
  · have cut : DrawSteps s (raise .shed (onChannels (cutTo target) s)) :=
      .of_lowered (chs := cutTo target s.outputs.channels) rfl (cutTo_lowers target _)
    exact cut.trans (headRecheck_drawSteps _)

theorem ageHead_drawSteps (s : State) : DrawSteps s (ageHead s) := by
  unfold ageHead
  split
  · cases queue : s.demand.requests with
    | nil => exact .rfl
    | cons r rest =>
      refine .of_same ?_
      simp only [State.draw, queue]
      rfl
  · exact .rfl

theorem expireHead_drawSteps (s : State) : DrawSteps s (expireHead s) := by
  cases queue : s.demand.requests with
  | nil =>
    rw [expireHead_of_noRequests queue]
    exact .rfl
  | cons r rest =>
    rw [expireHead_cons queue]
    split
    · refine .of_dropped (ws := rest.map Request.want) rfl fun w mem => ?_
      simp only [State.draw, queue, List.map_cons]
      exact List.mem_cons_of_mem _ mem
    · exact .rfl

/-! ### Trips and periods (R117, R125) -/

/-- A trip request that stands ends its channel's request, trips the channel and re-checks the heads. -/
theorem takeTripRequest_drawSteps (c : Chan) (s : State) : DrawSteps s (takeTripRequest c s) := by
  unfold takeTripRequest tripChannel
  split
  · refine DrawSteps.trans ?_ (headRecheck_drawSteps _)
    unfold DrawSteps
    rw [endRequestFor_draw]
    exact Relation.ReflTransGen.tail (.single (.dropped ((withoutChannel c s.demand.requests).map Request.want)
      fun _ mem => (mem_wants_withoutChannel mem).1)) (.tripped c fun _ mem => (mem_wants_withoutChannel mem).2)
  · exact .rfl

theorem takeTripRequests_drawSteps (s : State) : DrawSteps s (takeTripRequests s) :=
  (takeTripRequest_drawSteps 0 s).trans ((takeTripRequest_drawSteps 1 _).trans
    ((takeTripRequest_drawSteps 2 _).trans (takeTripRequest_drawSteps 3 _)))

theorem handTripRequest_drawSteps (c : Chan) (trip : TripTaking) (s : State) :
    DrawSteps s (handTripRequest c trip s) := by
  unfold handTripRequest
  split
  · exact .of_same rfl
  · exact takeTripRequest_drawSteps c s

theorem startPeriod_drawSteps (s : State) : DrawSteps s (startPeriod s) := .single .periodStarted

/-! ### The membership controller (R83 to R97) -/

theorem enterMember_drawSteps {s : State} (was : s.member.state = .joining ∨ s.member.state = .isolated) :
    DrawSteps s (enterMember s) := by
  have entered : DrawSteps s (enter .member { s with member := { s.member with isolationCount := 0 } }) :=
    .single (.entered .member (.member was))
  exact entered.trans (headRecheck_drawSteps _)

/-- The ask is emptied and the levels are cut to the floor before the station counts as ISOLATED (R75, R89, R123). -/
theorem enterIsolated_drawSteps {s : State} (was : s.member.state = .member) : DrawSteps s (enterIsolated s) := by
  rw [enterIsolated_state]
  refine Relation.ReflTransGen.tail (Relation.ReflTransGen.tail (.single (.asked false (.inl rfl)))
    (.lowered (cutTo s.config.floor s.outputs.channels) (cutTo_lowers _ _))) (.entered .isolated (.isolated was rfl ?_))
  show committedTotal (cutTo s.config.floor s.outputs.channels) ≤ s.config.floor
  rw [committedTotal_cutTo]
  exact Nat.min_le_right _ _

theorem membershipCheck_drawSteps (view : Sixteen Row) (s : State) : DrawSteps s (membershipCheck view s) := by
  cases state : s.member.state with
  | isolated =>
    rw [membershipCheck_of_isolated view state]
    split
    · exact enterMember_drawSteps (.inr state)
    · exact .rfl
  | listen | joining | member | start | parking | parked | fault =>
    unfold membershipCheck
    rw [state]
    exact .of_same rfl

theorem enterJoining_drawSteps {s : State} (was : s.member.state = .listen ∨ s.member.state = .parked) :
    DrawSteps s (enterJoining s) := .single (.entered .joining (.joining was))

theorem takeListenExpiry_drawSteps (s : State) : DrawSteps s (takeListenExpiry s) := by
  unfold takeListenExpiry
  split
  case isTrue reached => exact enterJoining_drawSteps (.inl reached.1)
  case isFalse => exact .rfl

theorem takeJoinExpiry_drawSteps (s : State) : DrawSteps s (takeJoinExpiry s) := by
  unfold takeJoinExpiry
  split
  case isTrue reached => exact enterMember_drawSteps (.inl reached.1)
  case isFalse => exact .rfl

theorem takeIsolationExpiry_drawSteps (s : State) : DrawSteps s (takeIsolationExpiry s) := by
  unfold takeIsolationExpiry
  split
  case isTrue reached => exact enterIsolated_drawSteps reached.1
  case isFalse => exact .rfl

theorem takeMemberExpiries_drawSteps (s : State) : DrawSteps s (takeMemberExpiries s) :=
  (takeIsolationExpiry_drawSteps s).trans ((takeJoinExpiry_drawSteps _).trans (takeListenExpiry_drawSteps _))

theorem unlessNext_drawSteps (row : Instr) {take : State → State} (h : ∀ s, DrawSteps s (take s)) (s : State) :
    DrawSteps s (unlessNext row take s) := by
  rcases unlessNext_cases row take s with left | taken
  · rw [left]
    exact .rfl
  · rw [taken]
    exact h s

theorem takeMemberExpiriesNotNext_drawSteps (s : State) : DrawSteps s (takeMemberExpiriesNotNext s) :=
  (unlessNext_drawSteps _ takeIsolationExpiry_drawSteps s).trans
    ((unlessNext_drawSteps _ takeJoinExpiry_drawSteps _).trans (unlessNext_drawSteps _ takeListenExpiry_drawSteps _))

theorem takeLineWatch_drawSteps (s : State) : DrawSteps s (takeLineWatch s) := by
  unfold takeLineWatch
  cases state : s.member.state with
  | member => exact enterIsolated_drawSteps state
  | listen | joining => exact .of_same (by simp only [State.draw, state])
  | start | isolated | parking | parked | fault => exact .rfl

theorem appliedTotal_map_force (chs : Four Channel) : appliedTotal (chs.map Channel.force) = 0 := rfl

theorem committedTotal_map_force (chs : Four Channel) : committedTotal (chs.map Channel.force) = 0 := rfl

/-- The channels are forced to zero and the transmitter is silent before the station counts as in FAULT (R97, R127). -/
theorem takeDuplicate_drawSteps (s : State) : DrawSteps s (takeDuplicate s) := by
  by_cases fault : s.member.state = .fault
  · rw [takeDuplicate_of_fault fault]
    exact .rfl
  · rw [takeDuplicate_of_not_fault fault]
    have lowered : ∀ c, (s.outputs.channels.get c).Lowers ((s.outputs.channels.map Channel.force).get c) := by
      intro c
      rw [Four.get_map]
      exact Channel.force_lowers _
    refine Relation.ReflTransGen.tail (Relation.ReflTransGen.tail (Relation.ReflTransGen.tail
      (Relation.ReflTransGen.tail (.single (.asked false (.inl rfl)))
        (.lowered (s.outputs.channels.map Channel.force) lowered)) (.stopped .silent fun f => nofun))
      (.entered .fault (.fault rfl rfl (committedTotal_map_force _) (appliedTotal_map_force _))))
      (.dropped [] fun w mem => absurd mem List.not_mem_nil)

/-! ### The peer table and receptions (R4 to R6, R25 to R31) -/

theorem claimArrival_drawSteps (n : Station) (q : Byte) (c : ClaimBody) (s : State) :
    DrawSteps s (claimArrival n q c s) := by
  rw [claimArrival_eq]
  split
  case isTrue confirms => exact (enterMember_drawSteps (s := s.claimTaken n q c) (.inr confirms.1)).after rfl
  case isFalse => exact .of_same rfl

theorem removeRow_drawSteps (n : Station) (s : State) : DrawSteps s (removeRow n s) := by
  unfold removeRow takeEmptyTable
  dsimp only
  split
  · split
    case isTrue isolated => exact (enterMember_drawSteps (.inr isolated)).after rfl
    case isFalse => exact .of_same rfl
  · exact .of_same rfl

theorem takeFrame_drawSteps (f : Frame) (s : State) : DrawSteps s (takeFrame f s) := by
  unfold takeFrame
  cases f with
  | claim n q c =>
    dsimp only
    split
    · exact takeDuplicate_drawSteps s
    · exact claimArrival_drawSteps n q c s
  | leave n q code =>
    dsimp only
    split
    · exact takeDuplicate_drawSteps s
    · exact removeRow_drawSteps n s

theorem endReception_drawSteps (s : State) : DrawSteps s (endReception s) := by
  unfold endReception
  split
  · dsimp only
    split
    · exact .of_same rfl
    · split
      · exact .of_same rfl
      · exact (takeFrame_drawSteps _ _).after rfl
  · exact .rfl

/-! ### Attempts (R11 to R16) -/

/-- Where a build carries an ask the station is MEMBER (R68). -/
theorem askRecordNow_may_ask (s : State) :
    decide ((askRecordNow s).state ≠ .none) = false ∨ s.member.state = .member := by
  by_cases member : s.member.state = .member
  · exact .inr member
  · rw [askRecordNow_of_none (askNow_of_barred (.inl member))]
    exact .inl rfl

/-- The frame built now announces what is applied and committed, or leaves with nothing applied (R20, R66). -/
theorem frameNow_promises (s : State) : s.draw.Promises (frameNow s) := by
  unfold frameNow
  split
  case isTrue leaves => exact (leaveDue_iff s).mp leaves
  case isFalse =>
    have held : heldNow s ≤ (claimNow s).bound := by
      unfold ClaimBody.bound
      split
      · exact le_rfl
      · exact Nat.le_max_left _ _
    exact ⟨(Nat.le_max_left _ _).trans held, (Nat.le_max_right _ _).trans held⟩

theorem beginAttempt_drawSteps {s : State} (flight : s.share.flight = none) : DrawSteps s (beginAttempt s) := by
  have computing : s.draw.computing = false := by simp [State.draw, flight]
  rw [beginAttempt_eq]
  by_cases leaves : leaveDue s = true
  · simp only [leaves, if_true]
    exact .single (.attempted (frameNow s) computing (frameNow_promises s))
  · simp only [leaves]
    exact Relation.ReflTransGen.tail (.single (.asked _ (askRecordNow_may_ask s)))
      (.attempted (frameNow s) computing (frameNow_promises s))

theorem tryAttempt_drawSteps (s : State) : DrawSteps s (tryAttempt s) := by
  unfold tryAttempt
  split
  case isTrue begins =>
    obtain ⟨-, -, -, -, flight⟩ := begins
    exact beginAttempt_drawSteps flight
  case isFalse => exact .rfl

theorem tryHeldAttempt_drawSteps (s : State) : DrawSteps s (tryHeldAttempt s) := by
  unfold tryHeldAttempt
  split
  · exact .rfl
  · exact tryAttempt_drawSteps s

theorem expireDeferral_drawSteps (s : State) : DrawSteps s (expireDeferral s) := by
  by_cases first : s.line.idle = true ∧ s.line.deferralExpired = false
  · obtain ⟨idle, unexpired⟩ := first
    rw [expireDeferral_eq idle unexpired]
    exact (tryAttempt_drawSteps s.noteExpiry).after rfl
  · rw [show expireDeferral s = s from if_neg first]
    exact .rfl

theorem collide_drawSteps (s : State) : DrawSteps s (collide s) := by
  have stopped : s.draw.Step { s.draw with transmitter := .idle } := .stopped .idle fun f => nofun
  unfold collide
  split
  · dsimp only
    split
    · exact .single stopped
    · exact .single stopped
  · exact .rfl

theorem completeTransmit_drawSteps (s : State) : DrawSteps s (completeTransmit s) := by
  cases sending : s.line.transmitter with
  | silent | idle =>
    unfold completeTransmit
    rw [sending]
    exact .rfl
  | sending f =>
    cases f with
    | claim n q b =>
      have completed : DrawSteps s (s.claimCompleted q b) := .single (.claimCompleted n q b sending)
      have same : completeTransmit s = headRecheck (s.claimCompleted q b) :=
        Host.Outcome.next.inj (exec_transmitComplete_claim sending)
      rw [same]
      exact completed.trans (headRecheck_drawSteps _)
    | leave n q code =>
      refine .single ?_
      have step := Draw.Step.leaveCompleted (d := s.draw) n q code sending
      unfold completeTransmit
      rw [sending]
      dsimp only
      by_cases parking : s.member.state = .parking
      · rw [if_pos (show s.draw.state = .parking from parking)] at step
        rw [if_pos (by exact parking)]
        exact step
      · rw [if_neg (show ¬s.draw.state = .parking from parking)] at step
        rw [if_neg (by exact parking)]
        exact step

/-! ### Rounds (R7, R46) -/

theorem LineInterface.idle_still {l : LineInterface} (idle : l.idle = true) (f : Frame) : l.transmitter ≠ .sending f := by
  intro sending
  simp [LineInterface.idle, LineInterface.sends, sending] at idle

/-- On an idle line the close of the table starts the share computation (R43). -/
theorem closeTable_drawSteps {s : State} (still : ∀ f, s.line.transmitter ≠ .sending f) : DrawSteps s (closeTable s) := by
  refine .single ?_
  have step := Draw.Step.computationStarted (d := s.draw) still
  rw [closeTable_eq]
  unfold State.draw at step ⊢
  exact step

theorem closeCounts_drawSteps (order : CloseOrder) (view : Sixteen Row) (s : State) :
    DrawSteps s (closeCounts order view s) := by
  cases order with
  | ageFirst =>
    exact (ageHead_drawSteps s).trans ((expireHead_drawSteps _).trans
      ((membershipCheck_drawSteps view _).trans (takeMemberExpiries_drawSteps _)))
  | stateFirst =>
    exact (membershipCheck_drawSteps view s).trans ((takeMemberExpiries_drawSteps _).trans
      ((ageHead_drawSteps _).trans (expireHead_drawSteps _)))
  | apart =>
    exact (ageHead_drawSteps s).trans ((unlessNext_drawSteps _ expireHead_drawSteps _).trans
      ((membershipCheck_drawSteps view _).trans (takeMemberExpiriesNotNext_drawSteps _)))

theorem closeRound_drawSteps (order : CloseOrder) (s : State) : DrawSteps s (closeRound order s) := by
  by_cases idle : s.line.idle = true
  · have still : ∀ f, (onLine LineInterface.closeRound (takeLeftExpiries s)).line.transmitter ≠ .sending f := by
      obtain ⟨m, a, d, chs, f, left⟩ := takeLeftExpiries_frame s
      rw [left]
      exact LineInterface.idle_still idle
    rw [closeRound_eq order idle]
    exact (expireHead_drawSteps s).trans ((takeMemberExpiries_drawSteps _).trans
      (((closeTable_drawSteps still).after rfl).trans (closeCounts_drawSteps order _ _)))
  · rw [show closeRound order s = s from if_neg idle]
    exact .rfl

/-- The own ask decision takes up no ask (R72). -/
theorem newEngine_asks (s : State) (h : s.newEngine.ask.state ≠ .none) : s.share.ask.state ≠ .none := by
  intro none
  rw [newEngine_ask, decideAsk_of_none _ _ _ none] at h
  exact h none

/-- The draw once the results are in place. -/
theorem withResults_draw (s : State) : s.withResults.draw
    = { s.draw with computing := false, asks := decide (s.newEngine.ask.state ≠ .none) } := by
  obtain ⟨n, f, frame⟩ := withResults_frame s
  rw [frame]
  rfl

/-- An ask record after the decision, from the one before it (R72). -/
theorem decided_drawSteps {s : State} {d : Draw} (asks : d.asks = s.draw.asks) :
    Relation.ReflTransGen Draw.Step d { d with asks := decide (s.newEngine.ask.state ≠ .none) } := by
  by_cases h : s.newEngine.ask.state = .none
  · exact .single (.asked _ (.inl (by simp [h])))
  · have same : decide (s.newEngine.ask.state ≠ .none) = d.asks := by
      simp [asks, State.draw, h, newEngine_asks s h]
    rw [same]

theorem withResults_drawSteps (s : State) : DrawSteps s s.withResults := by
  unfold DrawSteps
  rw [withResults_draw]
  exact Relation.ReflTransGen.head .resultsTaken (decided_drawSteps (d := { s.draw with computing := false }) rfl)

/-- A commit raises the head's channel with the end of the computation that decides it (R73, R107). -/
theorem takeCommitNotice_drawSteps {s : State} {owner : Owner}
    (h : committedOwner s.store.station s.config.capacity s.share = some owner) (flight : s.share.flight.isSome = true) :
    DrawSteps s (takeCommitNotice owner s.withResults) := by
  obtain ⟨asks, -, -, -, -, -, heard, -⟩ := commits_of_owner h
  unfold takeCommitNotice
  cases queue : s.withResults.demand.requests with
  | nil => exact withResults_drawSteps s
  | cons r rest =>
    dsimp only
    split
    case isFalse => exact withResults_drawSteps s
    case isTrue =>
      have wants : s.draw.wants = r.want :: rest.map Request.want := by
        rw [withResults_demand] at queue
        exact congrArg (List.map Request.want) queue
      have want : (r.channel, r.target) ∈ s.draw.wants := by
        rw [wants]
        exact List.mem_cons_self
      have raised : Relation.ReflTransGen Draw.Step s.draw
          { s.withResults.draw with
            channels := s.outputs.channels.set r.channel
              ((s.outputs.channels.get r.channel).commit r.target r.priority) } := by
        rw [withResults_draw]
        exact Relation.ReflTransGen.head
          (.committed r.channel r.target r.priority want flight heard (decide_eq_true asks))
          (decided_drawSteps (s := s) rfl)
      have draw : (writeResult r.channel r.tag .granted (onChannel r.channel (Channel.commit r.target r.priority)
          (setRequests rest s.withResults))).draw
          = { s.withResults.draw with
              channels := s.outputs.channels.set r.channel
                ((s.outputs.channels.get r.channel).commit r.target r.priority)
              wants := rest.map Request.want } := by
        rw [← withResults_outputs]
        rfl
      unfold DrawSteps
      rw [draw]
      refine raised.tail (.dropped (rest.map Request.want) fun w mem => ?_)
      rw [withResults_draw]
      show w ∈ s.draw.wants
      rw [wants]
      exact List.mem_cons_of_mem _ mem

theorem completed_drawSteps {s : State} (flight : s.share.flight.isSome = true) : DrawSteps s s.completed := by
  cases owned : committedOwner s.store.station s.config.capacity s.share with
  | some owner =>
    rw [completed_of_owner owned]
    exact takeCommitNotice_drawSteps owned flight
  | none =>
    have handed : ∀ t, DrawSteps t (handShed s.newEngine t) := by
      intro t
      unfold handShed
      split
      · exact shedCut_drawSteps _ t
      · exact .rfl
    unfold State.completed
    rw [owned]
    exact (withResults_drawSteps s).trans (handed _)

theorem completeShare_drawSteps (s : State) : DrawSteps s (completeShare s) := by
  by_cases flight : s.share.flight.isSome = true
  · rw [completeShare_eq flight]
    exact (completed_drawSteps flight).trans (tryHeldAttempt_drawSteps _)
  · have none : s.share.flight = none := by simpa using flight
    unfold completeShare
    rw [none]
    exact .rfl

theorem expireLineWatch_drawSteps (s : State) : DrawSteps s (expireLineWatch s) := by
  unfold expireLineWatch
  split
  · exact (takeLineWatch_drawSteps _).after rfl
  · exact .rfl

theorem passBitTime_drawSteps (s : State) : DrawSteps s (passBitTime s) := by
  unfold passBitTime
  split
  · refine .of_same ?_
    simp only [State.draw, Option.isSome_map]
    rfl
  · exact .rfl

end Sys2Proof.Machine
end

section
/-! PROOFS. What the commands of the local port change in the draw, and every command in one statement. -/

namespace Sys2Proof.Machine

/-! ### Commands (R154) -/

theorem takeCommand_drawSteps {decision : State → CmdResult × State} (h : ∀ s, DrawSteps s (decision s).2)
    (code : Byte) (s : State) : DrawSteps s (takeCommand code decision s) := by
  rcases takeCommand_cases code decision s with same | decided
  · rw [same]
    exact .rfl
  · rw [decided]
    exact ((h _).trans (.of_same rfl)).after rfl

/-- An accepted SUBMIT is for a NORMAL channel, within its max (R102). -/
theorem submit_checks {s : State} (accepted : submitRefusal s = none) :
    (s.outputs.channels.get (s.port.paramSelect.setWidth 2)).tripped = false
      ∧ s.port.paramTarget.toNat ≤ (s.config.entries.get (s.port.paramSelect.setWidth 2)).max := by
  by_cases range : s.submitOutOfRange
  · simp [submitRefusal_of_range range] at accepted
  · refine ⟨?_, Nat.le_of_not_lt fun above => range (.inr (.inl above))⟩
    by_contra tripped
    simp [submitRefusal_of_tripped range (Bool.eq_true_of_not_eq_false tripped)] at accepted

/-- The cut mark has no part in what a channel draws. -/
theorem uncut_lowers (s : State) (c : Chan) : (s.outputs.channels.get c).Lowers (s.uncut c) :=
  ⟨le_rfl, le_rfl, le_rfl, id, id⟩

/-- A SUBMIT that ends DONE by lowering its channel (R103). -/
theorem submitDone_lowers_drawSteps {s : State} {c : Chan} {ch : Channel} (tag : Byte)
    (lowers : (s.outputs.channels.get c).Lowers ch) : DrawSteps s (s.submitDone c tag ch) :=
  Relation.ReflTransGen.tail (.single (.lowered (s.outputs.channels.set c ch) (lowers_set lowers)))
    (.dropped ((withoutChannel c s.demand.requests).map Request.want) fun _ mem => (mem_wants_withoutChannel mem).1)

/-- A local grant is wanted and granted at once (R104). -/
theorem submitDone_grants_drawSteps {s : State} {c : Chan} {target : Nat} (priority : Priority) (tag : Byte)
    (normal : (s.outputs.channels.get c).tripped = false) (within : target ≤ (s.config.entries.get c).max)
    (fits : fitsLocally s c target = true) :
    DrawSteps s (s.submitDone c tag ((s.uncut c).grantLocally target priority)) := by
  obtain ⟨member, record, flight⟩ := fitsLocally_bounds fits
  have granted : Relation.ReflTransGen Draw.Step s.draw
      { s.draw with
        channels := s.outputs.channels.set c ((s.outputs.channels.get c).grantLocally target priority)
        wants := (c, target) :: s.draw.wants } :=
    Relation.ReflTransGen.tail (.single (.wanted c target normal within))
      (.granted c target priority List.mem_cons_self member record flight)
  have dropped := granted.tail (.dropped ((withoutChannel c s.demand.requests).map Request.want) fun w mem =>
    List.mem_cons_of_mem _ (mem_wants_withoutChannel mem).1)
  refine dropped.tail ?_
  have lowered := Draw.Step.lowered (d := { s.draw with
      channels := s.outputs.channels.set c ((s.outputs.channels.get c).grantLocally target priority)
      wants := (withoutChannel c s.demand.requests).map Request.want })
    (s.outputs.channels.set c ((s.uncut c).grantLocally target priority)) (by
      intro e
      rw [Four.get_set, Four.get_set]
      split
      · exact ⟨le_rfl, le_rfl, le_rfl, id, id⟩
      · exact .rfl)
  exact lowered

/-- A SUBMIT that is queued stands in its channel's former place or a new one (R105). -/
theorem submitQueued_drawSteps {s : State} {c : Chan} {target : Nat} (priority : Priority) (tag : Byte)
    (normal : (s.outputs.channels.get c).tripped = false) (within : target ≤ (s.config.entries.get c).max) :
    DrawSteps s (s.submitQueued c (s.newRequest c target priority tag)) := by
  have draw : (s.submitQueued c (s.newRequest c target priority tag)).draw = { s.draw with
      channels := s.outputs.channels.set c (s.uncut c)
      wants := (insertRequest (s.newRequest c target priority tag)
        (withoutChannel c s.demand.requests)).map Request.want } := by
    obtain ⟨d, f, frame⟩ := endRequestFor_frame c .superseded s
    unfold State.submitQueued
    rw [frame]
    rfl
  unfold DrawSteps
  rw [draw]
  refine Relation.ReflTransGen.tail (Relation.ReflTransGen.tail (.single (.wanted c target normal within))
    (.dropped ((insertRequest (s.newRequest c target priority tag)
      (withoutChannel c s.demand.requests)).map Request.want) fun w mem => ?_))
    (.lowered (s.outputs.channels.set c (s.uncut c)) (lowers_set (uncut_lowers s c)))
  obtain ⟨r, queued, rfl⟩ := List.mem_map.mp mem
  rcases mem_insertRequest.mp queued with rfl | former
  · exact List.mem_cons_self
  · exact List.mem_cons_of_mem _ (mem_wants_withoutChannel (List.mem_map_of_mem former)).1

theorem submit_drawSteps (s : State) : DrawSteps s (submit s).2 := by
  unfold submit
  split
  · exact .rfl
  · rename_i accepted
    obtain ⟨normal, within⟩ := submit_checks accepted
    rw [carrySubmit_eq]
    split
    case isTrue low =>
      have done := submitDone_lowers_drawSteps s.port.paramTag ((uncut_lowers s (s.port.paramSelect.setWidth 2)).trans
        (Channel.decrease_lowers (s.port.paramPriority.setWidth 3) low))
      split
      · exact done.trans (headRecheck_drawSteps _)
      · exact done
    case isFalse =>
      split
      case isTrue fits => exact submitDone_grants_drawSteps _ _ normal within fits
      case isFalse => exact submitQueued_drawSteps _ _ normal within

theorem withdraw_drawSteps (s : State) : DrawSteps s (withdraw s).2 := by
  unfold withdraw
  dsimp only
  split
  · exact .rfl
  · split
    · exact .rfl
    · exact endRequestFor_drawSteps _ _ s

theorem clearTrip_drawSteps (s : State) : DrawSteps s (clearTrip s).2 := by
  unfold clearTrip
  dsimp only
  split
  · exact .rfl
  · split
    · exact .of_lowered (chs := s.outputs.channels.set _ _) rfl (lowers_set (Channel.clear_lowers _))
    · exact .rfl

theorem forget_drawSteps (s : State) : DrawSteps s (forget s).2 := by
  unfold forget
  dsimp only
  split
  · exact .rfl
  · split
    · exact removeRow_drawSteps _ s
    · exact .rfl

/-- The ask is emptied and every level is cut to zero before the station counts as PARKING (R75, R94, R124). -/
theorem park_drawSteps (s : State) : DrawSteps s (park s).2 := by
  have active : (s.member.state = .joining ∨ s.member.state = .member ∨ s.member.state = .isolated) →
      DrawSteps s (park s).2 := by
    intro was
    rw [park_of_active was]
    exact Relation.ReflTransGen.tail (Relation.ReflTransGen.tail (Relation.ReflTransGen.tail
      (.single (.asked false (.inl rfl))) (.lowered (cutTo 0 s.outputs.channels) (cutTo_lowers _ _)))
      (.entered .parking (.parking was rfl ((committedTotal_cutTo 0 _).trans (Nat.min_zero _)))))
      (.dropped [] fun w mem => absurd mem List.not_mem_nil)
  cases state : s.member.state with
  | listen =>
    rw [park_of_listen state]
    exact Relation.ReflTransGen.tail (.single (.entered .parked (.parked state)))
      (.dropped [] fun w mem => absurd mem List.not_mem_nil)
  | joining => exact active (.inl state)
  | member => exact active (.inr (.inl state))
  | isolated => exact active (.inr (.inr state))
  | start | parking | parked | fault =>
    rw [park_of_other (by simp [state])]
    exact .rfl

theorem rejoin_drawSteps (s : State) : DrawSteps s (rejoin s).2 := by
  by_cases parked : s.member.state = .parked
  · rw [rejoin_of_parked parked]
    exact .single (.entered .joining (.joining (.inr parked)))
  · rw [rejoin_of_not_parked parked]
    exact .rfl

/-! ### Every command -/

theorem LineInterface.synchronised_transmitter (l : LineInterface) : l.synchronised.transmitter = l.transmitter := by
  unfold LineInterface.synchronised
  split <;> rfl

theorem LineInterface.transition_transmitter (l : LineInterface) : l.transition.transmitter = l.transmitter := by
  unfold LineInterface.transition
  split <;> rfl

theorem LineInterface.startBit_transmitter (dominant : Bool) (l : LineInterface) :
    (l.startBit dominant).transmitter = l.transmitter := by
  unfold LineInterface.startBit
  split <;> rfl

theorem LineInterface.endSlot_transmitter (value : Byte) (stop stays : Bool) (l : LineInterface) :
    (l.endSlot value stop stays).transmitter = l.transmitter := by
  unfold LineInterface.endSlot
  split
  · rfl
  · dsimp only
    split <;> rfl

/-- A change of the line interface that leaves the transmitter. -/
theorem DrawSteps.of_onLine {f : LineInterface → LineInterface} {s : State}
    (h : (f s.line).transmitter = s.line.transmitter) : DrawSteps s (onLine f s) :=
  .of_same (by simp only [State.draw, onLine_line, h]; rfl)

/-- A reset cause finds a running part and resets it, or prolongs the reset and leaves the draw (R149). -/
theorem beginReset_drawSteps (cause : ResetCause) (s : State) :
    DrawSteps s (beginReset cause s) ∨ StillAtRest (beginReset cause s) := by
  unfold beginReset
  cases s.phase with
  | inReset causes => exact .inl (.of_same rfl)
  | startUp | running => exact .inr (resetBlocks_atRest cause s)

/-- Every command but the end of start-up makes a run of changes to the draw, or resets the part. -/
theorem exec_drawSteps {i : Instr} (other : i ≠ .startUpEnd) (s : State) :
    ∃ t, exec i s = .next t ∧ (DrawSteps s t ∨ StillAtRest t) := by
  by_cases row : isPortOrStoreRow i = true
  · obtain ⟨t, next, x, p, n, rfl, -⟩ := exec_moves row s
    exact ⟨_, next, .inl (.of_same rfl)⟩
  cases i with
  | startUpEnd => exact absurd rfl other
  | powerOn => exact ⟨_, rfl, beginReset_drawSteps .power s⟩
  | resetPinAsserted => exact ⟨_, rfl, beginReset_drawSteps .pin s⟩
  | supplyReset => exact ⟨_, rfl, beginReset_drawSteps .supply s⟩
  | restart =>
    refine ⟨_, rfl, ?_⟩
    split
    case h_1 code _ => exact .inl (takeCommand_drawSteps (fun _ => .rfl) 8 s)
    case h_2 =>
      rcases takeWrite_cases (fun a => decide (a = cmdAddress)) (fun _ t => beginReset .restart t) s with
        same | ⟨a, -, -, taken⟩
      · rw [same]
        exact .inl .rfl
      · rw [taken]
        exact (beginReset_drawSteps .restart _).imp_left fun steps => steps.after rfl
  | resetEnd straps =>
    refine ⟨_, rfl, .inl ?_⟩
    unfold endReset
    cases s.phase with
    | inReset causes => exact .of_same rfl
    | startUp | running => exact .rfl
  | receiverReady => exact ⟨_, rfl, .inl (.of_onLine s.line.synchronised_transmitter)⟩
  | synchronisingTransition => exact ⟨_, rfl, .inl (.of_onLine s.line.transition_transmitter)⟩
  | startBitConfirmed dominant => exact ⟨_, rfl, .inl (.of_onLine (s.line.startBit_transmitter dominant))⟩
  | characterSlotEnd value stop stays =>
    exact ⟨_, rfl, .inl (.of_onLine (s.line.endSlot_transmitter value stop stays))⟩
  | receptionEnd => exact ⟨_, rfl, .inl (endReception_drawSteps s)⟩
  | roundClose order => exact ⟨_, rfl, .inl (closeRound_drawSteps order s)⟩
  | leaseExpiry n =>
    refine ⟨_, rfl, .inl ?_⟩
    rcases takeLeaseExpiry_cases n s with same | ⟨taken, -⟩
    · rw [same]
      exact .rfl
    · rw [taken]
      exact .of_same rfl
  | retireExpiry n =>
    refine ⟨_, rfl, .inl ?_⟩
    rcases takeRetireExpiry_cases n s with same | ⟨taken, -⟩
    · rw [same]
      exact .rfl
    · rw [taken]
      exact .of_same rfl
  | listenCountExpiry => exact ⟨_, rfl, .inl (takeListenExpiry_drawSteps s)⟩
  | joinCountExpiry => exact ⟨_, rfl, .inl (takeJoinExpiry_drawSteps s)⟩
  | isolationCountExpiry => exact ⟨_, rfl, .inl (takeIsolationExpiry_drawSteps s)⟩
  | askLimitExpiry => exact ⟨_, rfl, .inl (expireHead_drawSteps s)⟩
  | shareComputationCompletion => exact ⟨_, rfl, .inl (completeShare_drawSteps s)⟩
  | lineWatchExpiry => exact ⟨_, rfl, .inl (expireLineWatch_drawSteps s)⟩
  | deferralExpiry => exact ⟨_, rfl, .inl (expireDeferral_drawSteps s)⟩
  | collision => exact ⟨_, rfl, .inl (collide_drawSteps s)⟩
  | transmitComplete => exact ⟨_, rfl, .inl (completeTransmit_drawSteps s)⟩
  | periodStart =>
    refine ⟨_, rfl, .inl ?_⟩
    split
    · exact (takeTripRequests_drawSteps s).trans (startPeriod_drawSteps _)
    · exact .rfl
  | onCountEnd c =>
    refine ⟨_, rfl, .inl ?_⟩
    split
    · exact .of_lowered (chs := s.outputs.channels.set c _) rfl (lowers_set (Channel.endOnCount_lowers _))
    · exact .rfl
  | conversionPass =>
    refine ⟨_, rfl, .inl ?_⟩
    split
    · exact (takeTripRequests_drawSteps s).trans (.of_same rfl)
    · exact .rfl
  | conversionComplete raw trip =>
    refine ⟨_, rfl, .inl ?_⟩
    split
    · exact .rfl
    · exact .rfl
    · exact (takeTripRequests_drawSteps s).trans ((handTripRequest_drawSteps _ trip _).after rfl)
  | tripRequest c => exact ⟨_, rfl, .inl (takeTripRequest_drawSteps c s)⟩
  | submit => exact ⟨_, rfl, .inl (takeCommand_drawSteps submit_drawSteps 1 s)⟩
  | withdraw => exact ⟨_, rfl, .inl (takeCommand_drawSteps withdraw_drawSteps 2 s)⟩
  | clear => exact ⟨_, rfl, .inl (takeCommand_drawSteps clearTrip_drawSteps 3 s)⟩
  | forget => exact ⟨_, rfl, .inl (takeCommand_drawSteps forget_drawSteps 4 s)⟩
  | park => exact ⟨_, rfl, .inl (takeCommand_drawSteps park_drawSteps 5 s)⟩
  | rejoin => exact ⟨_, rfl, .inl (takeCommand_drawSteps rejoin_drawSteps 6 s)⟩
  | storeWrite | refusedUnknown | writeOperationDone | writeTimeout | supplyLow | storeKey | rawEvents | en
  | registerWrite | readLatch | transactionStart | addressByte | transactionEnd => exact absurd rfl row

/-! ### The end of start-up (R144) -/

/-- The draw when a start-up that passes has put its configuration in force, before its first period starts. -/
def State.startedDraw (l : Loaded) (s : State) : Draw :=
  { s.draw with config := l.config, state := .listen, transmitter := .idle }

/-- Start-up fails to FAULT, or passes to LISTEN and a first period (R82, R144). -/
theorem endStartUp_draw (s : State) : (endStartUp s).draw = s.draw
    ∨ (endStartUp s).draw = { s.draw with state := .fault }
    ∨ ∃ l, (s.startedDraw l).Step (endStartUp s).draw := by
  unfold endStartUp
  cases s.phase with
  | inReset causes => exact .inl rfl
  | running => exact .inl rfl
  | startUp =>
    dsimp only
    split
    case h_1 l _ => exact .inr (.inr ⟨l, .periodStarted⟩)
    case h_2 => exact .inr (.inl rfl)

/-! ### Conditions on the draw that every step keeps -/

theorem keeps_of_run {P : Draw → Prop} (kept : ∀ d e, Draw.Step d e → P d → P e) {d e : Draw}
    (run : Relation.ReflTransGen Draw.Step d e) (h : P d) : P e := by
  induction run with
  | refl => exact h
  | tail _ step ih => exact kept _ _ step ih

theorem stillAtRest_draw {s : State} (h : StillAtRest s) : restsUntilStartUp s = true ∧ s.draw = State.reset.draw := by
  obtain ⟨phase, store, port, free, queue, -, rfl⟩ := h
  exact ⟨restsUntilStartUp_atRest .., rfl⟩

theorem restsUntilStartUp_of_running {s : State} (running : s.phase = .running) : restsUntilStartUp s = true := by
  simp [restsUntilStartUp, running, Phase.isRunning]

theorem running_or_rests {s : State} (rests : restsUntilStartUp s = true) : s.phase = .running ∨ StillAtRest s := by
  cases phase : s.phase with
  | running => exact .inl rfl
  | inReset causes => exact .inr (stillAtRest_of_rests rests (by rw [phase]; rfl))
  | startUp => exact .inr (stillAtRest_of_rests rests (by rw [phase]; rfl))

section Kept
variable {P : Draw → Prop} (kept : ∀ d e, Draw.Step d e → P d → P e)
  (started : ∀ k, P { State.reset.draw with config := k, state := .listen, transmitter := .idle })
  (rest : P State.reset.draw)
include kept rest

/-- A running part is reset, or keeps running with the condition kept. -/
theorem exec_of_running_keeps_draw (i : Instr) {s : State} (running : s.phase = .running) (h : P s.draw) :
    ∃ t, exec i s = .next t ∧ restsUntilStartUp t = true ∧ P t.draw := by
  obtain ⟨t, next, own | reset⟩ := exec_of_running i running
  · have rests : restsUntilStartUp t = true := restsUntilStartUp_of_running (own.1.trans running)
    by_cases last : i = .startUpEnd
    · subst last
      have same : endStartUp s = s := by
        unfold endStartUp
        rw [running]
      obtain rfl : s = t := same.symm.trans (Host.Outcome.next.inj next)
      exact ⟨s, next, rests, h⟩
    · obtain ⟨u, next', steps | reset⟩ := exec_drawSteps last s
      · obtain rfl := Host.Outcome.next.inj (next'.symm.trans next)
        exact ⟨u, next', rests, keeps_of_run kept steps h⟩
      · obtain ⟨rests', draw⟩ := stillAtRest_draw reset
        exact ⟨u, next', rests', draw ▸ rest⟩
  · obtain ⟨rests, draw⟩ := stillAtRest_draw reset
    exact ⟨t, next, rests, draw ▸ rest⟩

include started

/-- A part that rests stays at rest, or start-up ends and finds the condition. -/
theorem exec_of_atRest_keeps_draw (i : Instr) {s : State} (h : StillAtRest s) :
    ∃ t, exec i s = .next t ∧ restsUntilStartUp t = true ∧ P t.draw := by
  by_cases last : i = .startUpEnd
  · subst last
    obtain ⟨rests, draw⟩ := stillAtRest_draw h
    refine ⟨endStartUp s, rfl, ?_, ?_⟩
    · obtain ⟨phase, store, port, free, queue, held, rfl⟩ := h
      cases phase with
      | inReset causes => exact rests
      | running => cases held
      | startUp =>
        unfold endStartUp
        dsimp only [State.atRest]
        split
        · exact restsUntilStartUp_of_running rfl
        · exact restsUntilStartUp_of_running rfl
    · rcases endStartUp_draw s with same | failed | ⟨l, begins⟩
      · rw [same, draw]
        exact rest
      · rw [failed, draw]
        exact kept _ _ (.entered .fault (.fault rfl rfl rfl rfl)) rest
      · refine kept _ _ begins ?_
        rw [State.startedDraw, draw]
        exact started l.config
  · obtain ⟨t, next, still⟩ := exec_atRest last h
    obtain ⟨rests, draw⟩ := stillAtRest_draw still
    exact ⟨t, next, rests, draw ▸ rest⟩

/-- A condition that every single change keeps holds after every step of a state that rests until start-up ends, where it
holds at rest and as start-up ends. -/
theorem step_keeps_draw {s t : State} (rests : restsUntilStartUp s = true) (h : P s.draw) (next : step s = .next t) :
    restsUntilStartUp t = true ∧ P t.draw := by
  have result : ∃ u, step s = .next u ∧ restsUntilStartUp u = true ∧ P u.draw := by
    unfold step
    cases s.pending with
    | nil =>
      refine ⟨_, rfl, ?_, keeps_of_run kept (passBitTime_drawSteps s) h⟩
      rcases running_or_rests rests with running | still
      · exact restsUntilStartUp_of_running ((passBitTime_keepsOwnRow s).1.trans running)
      · have inactive : s.line.receiver = .inactive := by
          obtain ⟨phase, store, port, free, queue, held, rfl⟩ := still
          rfl
        rw [passBitTime_of_waiting (.inl inactive)]
        exact rests
    | cons i queue =>
      rcases running_or_rests (s := s.withPending queue) rests with running | still
      · exact exec_of_running_keeps_draw kept rest i running h
      · exact exec_of_atRest_keeps_draw kept started rest i still
  obtain ⟨u, stepped, kept'⟩ := result
  obtain rfl := Host.Outcome.next.inj (stepped.symm.trans next)
  exact kept'

end Kept

end Sys2Proof.Machine
end

section
/-! PROOFS. No level passes its max, and a TRIPPED channel stays at zero (R102, R110, R115, R125). -/

namespace Sys2Proof.Machine

/-! ### Levels within their max (R102, R115) -/

/-- The levels of a channel record are within a channel's max. -/
def Draw.LevelsWithin (d : Draw) (c : Chan) (ch : Channel) : Prop :=
  ch.committed ≤ (d.config.entries.get c).max ∧ ch.applied ≤ (d.config.entries.get c).max

/-- No level of a channel exceeds its max, and no queued request would bring one above it. -/
structure Draw.WithinMax (d : Draw) : Prop where
  levels : ∀ c, d.LevelsWithin c (d.channels.get c)
  wants : ∀ w ∈ d.wants, w.2 ≤ (d.config.entries.get w.1).max

theorem levelsWithinMax_iff (s : State) :
    levelsWithinMax s = true ↔ restsUntilStartUp s = true ∧ s.draw.WithinMax := by
  have levels : (Four.zipWith Channel.withinMax s.config.entries s.outputs.channels).toList.all id = true
      ↔ ∀ c, s.draw.LevelsWithin c (s.outputs.channels.get c) := by
    rw [Four.all_toList]
    simp [Channel.withinMax, Draw.LevelsWithin, State.draw]
  have wants : s.demand.requests.all (fun r => decide (r.target ≤ (s.config.entries.get r.channel).max)) = true
      ↔ ∀ w ∈ s.draw.wants, w.2 ≤ (s.config.entries.get w.1).max := by
    simp [State.draw, Request.want]
  unfold levelsWithinMax
  rw [Bool.and_eq_true, Bool.and_eq_true, levels, wants, and_assoc]
  exact and_congr_right fun _ => ⟨fun ⟨l, w⟩ => ⟨l, w⟩, fun ⟨l, w⟩ => ⟨l, w⟩⟩

theorem Draw.Step.keeps_withinMax {d e : Draw} (step : d.Step e) (h : d.WithinMax) : e.WithinMax := by
  obtain ⟨levels, wants⟩ := h
  cases step with
  | dropped ws sub => exact ⟨levels, fun w mem => wants w (sub w mem)⟩
  | wanted c target normal within => exact ⟨levels, List.forall_mem_cons.mpr ⟨within, wants⟩⟩
  | lowered chs lowers =>
    exact ⟨fun c => ⟨(lowers c).committed.trans (levels c).1, (lowers c).applied.trans (levels c).2⟩, wants⟩
  | tripped c ended =>
    exact ⟨forall_get_set (P := d.LevelsWithin) levels ⟨Nat.zero_le _, Nat.zero_le _⟩, wants⟩
  | granted c target priority want | committed c target priority want =>
    exact ⟨forall_get_set (P := d.LevelsWithin) levels ⟨wants _ want, (levels c).2⟩, wants⟩
  | periodStarted =>
    refine ⟨fun c => ?_, wants⟩
    rw [Four.get_zipWith]
    exact ⟨(levels c).1, (Channel.levelToApply_le _).trans (levels c).1⟩
  | claimCompleted =>
    refine ⟨fun c => ?_, wants⟩
    rw [Four.get_map]
    exact levels c
  | resultsTaken | asked | entered | stopped | computationStarted | attempted | leaveCompleted =>
    exact ⟨levels, wants⟩

/-- Until start-up ends every level is zero and nothing is queued. -/
theorem resetChannels_get (c : Chan) : State.reset.draw.channels.get c = Channel.reset := Four.get_same _ _

/-! ### TRIPPED channels (R110, R125) -/

/-- A channel record that, when it is TRIPPED, has levels 0 and no gate, with no request queued for the channel. -/
def Draw.ZeroIfTripped (d : Draw) (c : Chan) (ch : Channel) : Prop :=
  ch.tripped = true → (ch.committed = 0 ∧ ch.applied = 0 ∧ ch.gate = none) ∧ ∀ w ∈ d.wants, w.1 ≠ c

/-- Every TRIPPED channel is at zero. -/
def Draw.TrippedAtZero (d : Draw) : Prop := ∀ c, d.ZeroIfTripped c (d.channels.get c)

theorem trippedAtZero_iff (s : State) : trippedAtZero s = true ↔ s.draw.TrippedAtZero := by
  have all : ∀ p : Chan → Bool, ([0, 1, 2, 3] : List Chan).all p = true ↔ ∀ c, p c = true := by
    intro p
    rw [List.all_eq_true]
    exact ⟨fun h c => h c (by simpa using chan_cases c), fun h c _ => h c⟩
  unfold trippedAtZero
  rw [all]
  refine forall_congr' fun c => ?_
  have wants : (∀ w ∈ s.draw.wants, w.1 ≠ c) ↔ ∀ r ∈ s.demand.requests, r.channel ≠ c := List.forall_mem_map
  unfold Draw.ZeroIfTripped
  rw [wants]
  simp [State.draw, imp_iff_not_or]

theorem Draw.Step.keeps_trippedAtZero {d e : Draw} (step : d.Step e) (h : d.TrippedAtZero) : e.TrippedAtZero := by
  -- A channel with a queued request is NORMAL.
  have normal : ∀ {c target}, (c, target) ∈ d.wants → ¬(d.channels.get c).tripped = true :=
    fun want tripped => (h _ tripped).2 _ want rfl
  cases step with
  | dropped ws sub => exact fun c tripped => ⟨(h c tripped).1, fun w mem => (h c tripped).2 w (sub w mem)⟩
  | wanted c target notTripped =>
    intro c' tripped
    refine ⟨(h c' tripped).1, List.forall_mem_cons.mpr ⟨fun same => ?_, (h c' tripped).2⟩⟩
    obtain rfl : c = c' := same
    exact absurd tripped (by simp [notTripped])
  | lowered chs lowers =>
    intro c tripped
    obtain ⟨⟨committed, applied, gate⟩, noWant⟩ := h c ((lowers c).tripped tripped)
    exact ⟨⟨Nat.le_zero.mp (committed ▸ (lowers c).committed), Nat.le_zero.mp (applied ▸ (lowers c).applied),
      (lowers c).gate gate⟩, noWant⟩
  | tripped c ended =>
    exact forall_get_set (P := d.ZeroIfTripped) h fun _ => ⟨⟨rfl, rfl, rfl⟩, ended⟩
  | granted c target priority want | committed c target priority want =>
    exact forall_get_set (P := d.ZeroIfTripped) h
      fun tripped => absurd tripped (normal want)
  | periodStarted =>
    intro c
    rw [Four.get_zipWith]
    intro tripped
    obtain ⟨⟨committed, -, gate⟩, noWant⟩ := h c tripped
    exact ⟨⟨committed, Nat.le_zero.mp (committed ▸ Channel.levelToApply_le _), gate⟩, noWant⟩
  | claimCompleted =>
    intro c
    rw [Four.get_map]
    intro tripped
    obtain ⟨⟨committed, applied, -⟩, noWant⟩ := h c tripped
    exact ⟨⟨committed, applied, rfl⟩, noWant⟩
  | resultsTaken | asked | entered | stopped | computationStarted | attempted | leaveCompleted => exact h

/-- After reset no channel is TRIPPED. -/
theorem trippedAtZero_of_atRest {s : State} (h : StillAtRest s) : s.draw.TrippedAtZero := by
  intro c tripped
  rw [(stillAtRest_draw h).2, resetChannels_get] at tripped
  cases tripped

/-- TRIPPED channels stay at zero through every command, whatever state it finds. -/
theorem exec_keeps_trippedAtZero (i : Instr) {s : State} (h : s.draw.TrippedAtZero) :
    ∃ t, exec i s = .next t ∧ t.draw.TrippedAtZero := by
  by_cases last : i = .startUpEnd
  · subst last
    refine ⟨endStartUp s, rfl, ?_⟩
    rcases endStartUp_draw s with same | failed | ⟨l, begins⟩
    · rw [same]
      exact h
    · rw [failed]
      exact h
    · exact begins.keeps_trippedAtZero h
  · obtain ⟨t, next, steps | reset⟩ := exec_drawSteps last s
    · exact ⟨t, next, keeps_of_run (fun _ _ => Draw.Step.keeps_trippedAtZero) steps h⟩
    · exact ⟨t, next, trippedAtZero_of_atRest reset⟩

end Sys2Proof.Machine

section
open Sys2Proof Sys2Proof.Machine

/-- Settles O56: every single change to the draw keeps the levels and the wanted targets within their max. -/
theorem levelsWithinMaxAreKept : Obligations.LevelsWithinMaxAreKept := by
  intro s t within next
  obtain ⟨rests, levels⟩ := (levelsWithinMax_iff s).mp within
  have zero : ∀ k, Draw.WithinMax { State.reset.draw with config := k } := by
    refine fun k => ⟨fun c => ?_, fun w mem => absurd mem List.not_mem_nil⟩
    dsimp only
    rw [resetChannels_get]
    exact ⟨Nat.zero_le _, Nat.zero_le _⟩
  exact (levelsWithinMax_iff t).mpr (step_keeps_draw (P := Draw.WithinMax) (fun _ _ => Draw.Step.keeps_withinMax)
    (fun k => ⟨(zero k).levels, (zero k).wants⟩) (zero _) rests levels next)

/-- Settles O57: a TRIPPED channel has no request to raise it, a trip ends its channel's request, and a period applies
nothing to it. -/
theorem trippedChannelsStayAtZero : Obligations.TrippedChannelsStayAtZero := by
  intro s t zero next
  rw [trippedAtZero_iff] at zero ⊢
  have result : ∃ u, step s = .next u ∧ u.draw.TrippedAtZero := by
    unfold step
    cases s.pending with
    | nil => exact ⟨_, rfl, keeps_of_run (fun _ _ => Draw.Step.keeps_trippedAtZero) (passBitTime_drawSteps s) zero⟩
    | cons i queue => exact exec_keeps_trippedAtZero i (s := s.withPending queue) zero
  obtain ⟨u, stepped, kept⟩ := result
  obtain rfl := Host.Outcome.next.inj (stepped.symm.trans next)
  exact kept

end
end

section
/-! PROOFS. The station draws no more than it has announced (R20, R66, R75, R90, R95, R119, R120, R128). -/

namespace Sys2Proof.Machine

/-! ### The condition on the draw -/

/-- No channel is gated. -/
def Draw.Ungated (d : Draw) : Prop := ∀ c, (d.channels.get c).gate = none

/-- The station draws no more than its own record announces, with what keeps it so. -/
structure Draw.WithinBound (d : Draw) : Prop where
  applied : appliedTotal d.channels ≤ recordBound d.own
  toApply : totalToApply d.channels ≤ recordBound d.own
  flight : ∀ f, d.transmitter = .sending f → d.computing = false ∧ d.Promises f
  completed : ∀ o, d.own = some o → o.completed = true → d.Ungated ∧ d.computing = false
  snapshot : d.computing = true → d.heardItself = true → d.Ungated
  asks : d.state = .member ∨ d.asks = false
  zero : d.state.standsAtZero = true → committedTotal d.channels = 0
  floor : d.state = .isolated → committedTotal d.channels ≤ d.config.floor
  nothing : d.state.appliesNothing = true → appliedTotal d.channels = 0

theorem flightFrameHolds_iff (s : State) : flightFrameHolds s = true
    ↔ ∀ f, s.draw.transmitter = .sending f → s.draw.computing = false ∧ s.draw.Promises f := by
  have draws : s.draw.transmitter = s.line.transmitter := rfl
  unfold flightFrameHolds
  rw [draws]
  cases s.line.transmitter with
  | silent | idle => simp
  | sending f =>
    cases f with
    | claim n q b => simp [State.draw, Draw.Promises]
    | leave n q code => simp [State.draw, Draw.Promises]

theorem ungated_iff (s : State) : ungated s.outputs.channels = true ↔ s.draw.Ungated := by
  unfold ungated Draw.Ungated
  rw [Four.all_toList]
  simp [State.draw]

theorem gatesPlaced_iff (s : State) : gatesPlaced s = true
    ↔ (∀ o, s.draw.own = some o → o.completed = true → s.draw.Ungated ∧ s.draw.computing = false)
      ∧ (s.draw.computing = true → s.draw.heardItself = true → s.draw.Ungated) := by
  have own : ownCompletedNow s = true ↔ ∃ o, s.draw.own = some o ∧ o.completed = true := by
    have draws : s.draw.own = s.share.own := rfl
    unfold ownCompletedNow
    rw [draws]
    cases s.share.own <;> simp
  have now : (∀ o, s.draw.own = some o → o.completed = true → s.draw.Ungated ∧ s.draw.computing = false)
      ↔ (ownCompletedNow s = true → s.draw.Ungated ∧ s.draw.computing = false) := by
    rw [own]
    exact ⟨fun h ⟨o, is, done⟩ => h o is done, fun h o is done => h ⟨o, is, done⟩⟩
  have heard : s.draw.heardItself = s.share.snapshot.ownCompleted := rfl
  have computing : s.draw.computing = s.share.flight.isSome := rfl
  rw [now, ← ungated_iff, heard, computing]
  unfold gatesPlaced
  cases ownCompletedNow s <;> cases ungated s.outputs.channels <;> cases s.share.flight <;> simp

theorem not_or_decide_iff {a : Bool} {p : Prop} [Decidable p] : (!a || decide p) = true ↔ (a = true → p) := by
  cases a <;> simp

theorem drawsWithinBound_iff (s : State) :
    drawsWithinBound s = true ↔ restsUntilStartUp s = true ∧ s.draw.WithinBound := by
  have asks : (decide (s.member.state = .member) || decide (s.share.ask.state = .none)) = true
      ↔ s.draw.state = .member ∨ s.draw.asks = false := by simp [State.draw]
  unfold drawsWithinBound
  simp only [Bool.and_eq_true, flightFrameHolds_iff, gatesPlaced_iff, asks, not_or_decide_iff, decide_eq_true_eq]
  constructor
  · rintro ⟨⟨⟨⟨⟨⟨⟨⟨rests, applied⟩, toApply⟩, flight⟩, completed, snapshot⟩, ask⟩, zero⟩, floor⟩, nothing⟩
    exact ⟨rests, applied, toApply, flight, completed, snapshot, ask, zero, floor, nothing⟩
  · rintro ⟨rests, applied, toApply, flight, completed, snapshot, ask, zero, floor, nothing⟩
    exact ⟨⟨⟨⟨⟨⟨⟨⟨rests, applied⟩, toApply⟩, flight⟩, completed, snapshot⟩, ask⟩, zero⟩, floor⟩, nothing⟩

/-! ### The totals under a change of channels -/

theorem Four.sum_le (g : Channel → Nat) {x y : Four Channel} (h : ∀ c, g (x.get c) ≤ g (y.get c)) :
    g x.q0 + g x.q1 + g x.q2 + g x.q3 ≤ g y.q0 + g y.q1 + g y.q2 + g y.q3 :=
  Nat.add_le_add (Nat.add_le_add (Nat.add_le_add (h 0) (h 1)) (h 2)) (h 3)

/-- A commit gates its channel at the level it had, so that an ungated channel applies no more than before (R107, R117). -/
theorem Channel.commit_levelToApply_le (target : Nat) (priority : Priority) {ch : Channel} (ungated : ch.gate = none) :
    (ch.commit target priority).levelToApply ≤ ch.levelToApply := by
  unfold Channel.levelToApply Channel.commit
  dsimp only
  split
  · exact le_rfl
  · rw [ungated]
    exact Nat.min_le_right _ _

section Channels
variable {d : Draw} {chs : Four Channel} (h : d.WithinBound)
include h

/-- Channels that stand at or below what they were keep the bound. -/
theorem Draw.WithinBound.of_below (committed : committedTotal chs ≤ committedTotal d.channels)
    (applied : appliedTotal chs ≤ appliedTotal d.channels) (toApply : totalToApply chs ≤ totalToApply d.channels)
    (gates : d.Ungated → ∀ c, (chs.get c).gate = none) : Draw.WithinBound { d with channels := chs } where
  applied := applied.trans h.applied
  toApply := toApply.trans h.toApply
  flight f sending := by
    obtain ⟨computing, promises⟩ := h.flight f sending
    refine ⟨computing, ?_⟩
    cases f with
    | claim n q b => exact ⟨applied.trans promises.1, committed.trans promises.2⟩
    | leave n q code => exact ⟨promises.1, Nat.le_zero.mp (applied.trans promises.2.le)⟩
  completed o is done := ⟨gates (h.completed o is done).1, (h.completed o is done).2⟩
  snapshot computing heard := gates (h.snapshot computing heard)
  asks := h.asks
  zero stands := Nat.le_zero.mp (committed.trans (h.zero stands).le)
  floor isolated := committed.trans (h.floor isolated)
  nothing applies := Nat.le_zero.mp (applied.trans (h.nothing applies).le)

/-- A period applies what the gates allow, which the bound already covers (R117, R119). -/
theorem Draw.WithinBound.of_period :
    Draw.WithinBound { d with channels := Four.zipWith Channel.startPeriod d.config.entries d.channels } where
  applied := h.toApply
  toApply := h.toApply
  flight f sending := by
    obtain ⟨computing, promises⟩ := h.flight f sending
    have within := totalToApply_le_committedTotal d.channels
    refine ⟨computing, ?_⟩
    cases f with
    | claim n q b => exact ⟨within.trans promises.2, promises.2⟩
    | leave n q code =>
      have zero : committedTotal d.channels = 0 := h.zero (by rw [promises.1]; rfl)
      exact ⟨promises.1, Nat.le_zero.mp (within.trans zero.le)⟩
  completed o is done := by
    refine ⟨fun c => ?_, (h.completed o is done).2⟩
    rw [Four.get_zipWith]
    exact (h.completed o is done).1 c
  snapshot computing heard c := by
    rw [Four.get_zipWith]
    exact h.snapshot computing heard c
  asks := h.asks
  zero := h.zero
  floor := h.floor
  nothing applies := by
    have zero : committedTotal d.channels = 0 := h.zero (by
      revert applies
      dsimp only
      cases d.state <;> simp [StationState.appliesNothing, StationState.standsAtZero])
    exact Nat.le_zero.mp ((totalToApply_le_committedTotal d.channels).trans zero.le)

/-- A raise of a MEMBER's channel that leaves its applied level and its gate keeps the bound, where the committed total
stays within the own record's bound and that of a CLAIM in flight (R104, R106). -/
theorem Draw.WithinBound.of_raise {c : Chan} {ch : Channel} (member : d.state = .member)
    (applied : ch.applied = (d.channels.get c).applied) (gate : ch.gate = (d.channels.get c).gate)
    (record : committedTotal (d.channels.set c ch) ≤ recordBound d.own)
    (flight : ∀ n q b, d.transmitter = .sending (.claim n q b) → committedTotal (d.channels.set c ch) ≤ b.bound) :
    Draw.WithinBound { d with channels := d.channels.set c ch } := by
  have total : appliedTotal (d.channels.set c ch) = appliedTotal d.channels := by
    have := appliedTotal_set d.channels c ch
    omega
  have gates : d.Ungated → ∀ e, ((d.channels.set c ch).get e).gate = none := fun ungated =>
    forall_get_set (P := fun _ ch => ch.gate = none) ungated (gate.trans (ungated c))
  exact {
    applied := total.le.trans h.applied
    toApply := (totalToApply_le_committedTotal _).trans record
    flight := by
      intro f sending
      obtain ⟨computing, promises⟩ := h.flight f sending
      refine ⟨computing, ?_⟩
      cases f with
      | claim n q b => exact ⟨total.le.trans promises.1, flight n q b sending⟩
      | leave n q code => exact absurd (member.symm.trans promises.1) nofun
    completed := fun o is done => ⟨gates (h.completed o is done).1, (h.completed o is done).2⟩
    snapshot := fun computing heard => gates (h.snapshot computing heard)
    asks := h.asks
    zero := fun stands => by simp [member, StationState.standsAtZero] at stands
    floor := fun isolated => absurd (member.symm.trans isolated) nofun
    nothing := fun applies => by simp [member, StationState.appliesNothing] at applies }

/-- A commit comes with no gate standing and no frame in flight, so what a period would apply stays within the record
(R107, R119, R120). -/
theorem Draw.WithinBound.of_commit {c : Chan} {target : Nat} {priority : Priority} (computing : d.computing = true)
    (heard : d.heardItself = true) (asks : d.asks = true) :
    Draw.WithinBound { d with
      channels := d.channels.set c ((d.channels.get c).commit target priority), computing := false } := by
  have ungated := h.snapshot computing heard
  have member : d.state = .member := h.asks.resolve_right (by simp [asks])
  have still : ∀ f, d.transmitter ≠ .sending f := fun f sending => by
    simpa [computing] using (h.flight f sending).1
  have total := appliedTotal_set d.channels c ((d.channels.get c).commit target priority)
  have toApply := totalToApply_set d.channels c ((d.channels.get c).commit target priority)
  have level := Channel.commit_levelToApply_le target priority (ungated c)
  have same : ((d.channels.get c).commit target priority).applied = (d.channels.get c).applied := rfl
  exact {
    applied := Nat.le_trans (m := appliedTotal d.channels) (by dsimp only; omega) h.applied
    toApply := Nat.le_trans (m := totalToApply d.channels) (by dsimp only; omega) h.toApply
    flight := fun f sending => absurd sending (still f)
    completed := fun o is done => by simpa [computing] using (h.completed o is done).2
    snapshot := nofun
    asks := .inl member
    zero := fun stands => by simp [member, StationState.standsAtZero] at stands
    floor := fun isolated => absurd (member.symm.trans isolated) nofun
    nothing := fun applies => by simp [member, StationState.appliesNothing] at applies }

end Channels

/-! ### The station's states and frames -/

section States
variable {d : Draw} (h : d.WithinBound)
include h

/-- A change of the station state that its new conditions allow; a LEAVE is in flight in PARKING alone (R20). -/
theorem Draw.WithinBound.of_state {st : StationState} (noLeave : d.state = .parking → ∀ f, d.transmitter ≠ .sending f)
    (asks : st = .member ∨ d.asks = false) (zero : st.standsAtZero = true → committedTotal d.channels = 0)
    (floor : st = .isolated → committedTotal d.channels ≤ d.config.floor)
    (nothing : st.appliesNothing = true → appliedTotal d.channels = 0) :
    Draw.WithinBound { d with state := st } :=
  { h with
    flight := by
      intro f sending
      obtain ⟨computing, promises⟩ := h.flight f sending
      refine ⟨computing, ?_⟩
      cases f with
      | claim n q b => exact promises
      | leave n q code => exact absurd sending (noLeave promises.1 _)
    asks := asks
    zero := zero
    floor := floor
    nothing := nothing }

theorem Draw.WithinBound.of_enters {st : StationState} (enters : d.Enters st) :
    Draw.WithinBound { d with state := st } := by
  have asksNot : d.state ≠ .member → d.asks = false := fun other => h.asks.resolve_left other
  cases enters with
  | joining was =>
    have atZero : d.state.standsAtZero = true ∧ d.state.appliesNothing = true ∧ d.state ≠ .parking
        ∧ d.state ≠ .member := by rcases was with was | was <;> simp [was] <;> decide
    obtain ⟨stands, applies, parking, member⟩ := atZero
    exact h.of_state (fun is => absurd is parking) (.inr (asksNot member)) (fun _ => h.zero stands) nofun
      (fun _ => h.nothing applies)
  | member was =>
    refine h.of_state (fun is => ?_) (.inl rfl) nofun nofun nofun
    rcases was with was | was <;> exact absurd (was.symm.trans is) nofun
  | isolated was asks cut =>
    exact h.of_state (fun is => absurd (was.symm.trans is) nofun) (.inr asks) nofun (fun _ => cut) nofun
  | parking was asks cut =>
    refine h.of_state (fun is => ?_) (.inr asks) (fun _ => cut) nofun nofun
    rcases was with was | was | was <;> exact absurd (was.symm.trans is) nofun
  | parked was =>
    exact h.of_state (fun is => absurd (was.symm.trans is) nofun) (.inr (asksNot (by simp [was])))
      (fun _ => h.zero (by rw [was]; rfl)) nofun (fun _ => h.nothing (by rw [was]; rfl))
  | fault silent asks cut forced =>
    exact h.of_state (fun _ f sending => absurd (silent.symm.trans sending) nofun) (.inr asks) (fun _ => cut) nofun
      (fun _ => forced)

/-- A computation that starts takes the completed mark to the snapshot, and the own record keeps its bound (R43). -/
theorem Draw.WithinBound.of_computation (still : ∀ f, d.transmitter ≠ .sending f) :
    Draw.WithinBound { d with
      own := d.own.map fun o => { o with completed := false }
      computing := true
      heardItself := match d.own with | none => false | some o => o.completed } := by
  have bound : recordBound (d.own.map fun o => { o with completed := false }) = recordBound d.own := by
    cases d.own <;> rfl
  exact { h with
    applied := bound ▸ h.applied
    toApply := bound ▸ h.toApply
    flight := fun f sending => absurd sending (still f)
    completed := by
      intro o is done
      obtain ⟨_, -, rfl⟩ := Option.map_eq_some_iff.mp is
      cases done
    snapshot := by
      intro _ heard
      cases own : d.own with
      | none => simp [own] at heard
      | some o => exact (h.completed o own (by simpa [own] using heard)).1 }

/-- A completed CLAIM announces what is committed and applied, and nothing stands gated after it (R64, R66, R120). -/
theorem Draw.WithinBound.of_claim {n : Station} {q : Byte} {b : ClaimBody}
    (sending : d.transmitter = .sending (.claim n q b)) :
    Draw.WithinBound { d with
      transmitter := .idle, own := some { body := b, sequence := q, completed := true }
      channels := d.channels.map Channel.release } := by
  obtain ⟨computing, applied, committed⟩ := h.flight _ sending
  exact { h with
    applied := applied
    toApply := (totalToApply_le_committedTotal _).trans committed
    flight := nofun
    completed := fun _ _ _ => ⟨fun c => by rw [Four.get_map]; rfl, computing⟩
    snapshot := fun computes => by simp [computing] at computes }

/-- A completed LEAVE takes the record away from a station that draws nothing (R20, R64, R95). -/
theorem Draw.WithinBound.of_leave {n : Station} {q : Byte} {code : Half}
    (sending : d.transmitter = .sending (.leave n q code)) :
    Draw.WithinBound { d with
      transmitter := .idle, own := none, state := if d.state = .parking then .parked else d.state } := by
  obtain ⟨computing, parking, applied⟩ := h.flight _ sending
  have committed : committedTotal d.channels = 0 := h.zero (by rw [parking]; rfl)
  have left : Draw.WithinBound { d with transmitter := .idle, own := none } :=
    { h with
      applied := applied.le
      toApply := (totalToApply_le_committedTotal _).trans committed.le
      flight := nofun
      completed := nofun }
  rw [if_pos parking]
  exact left.of_state (fun _ => nofun) (.inr (h.asks.resolve_left (by simp [parking]))) (fun _ => committed) nofun
    (fun _ => applied)

end States

/-! ### Every change -/

theorem Draw.Step.keeps_withinBound {d e : Draw} (step : d.Step e) (h : d.WithinBound) : e.WithinBound := by
  cases step with
  | dropped | wanted => exact { h with }
  | lowered chs lowers =>
    exact h.of_below (Four.sum_le Channel.committed fun c => (lowers c).committed)
      (Four.sum_le Channel.applied fun c => (lowers c).applied)
      (Four.sum_le Channel.levelToApply fun c => (lowers c).toApply) fun ungated c => (lowers c).gate (ungated c)
  | tripped c ended =>
    have committed := committedTotal_set d.channels c (d.channels.get c).trip
    have applied := appliedTotal_set d.channels c (d.channels.get c).trip
    have toApply := totalToApply_set d.channels c (d.channels.get c).trip
    have zero : (d.channels.get c).trip.committed = 0 ∧ (d.channels.get c).trip.applied = 0
      ∧ (d.channels.get c).trip.levelToApply = 0 := ⟨rfl, rfl, rfl⟩
    exact h.of_below (by omega) (by omega) (by omega) fun ungated =>
      forall_get_set (P := fun _ ch => ch.gate = none) ungated rfl
  | granted c target priority want member record flight =>
    have needed : committedTotal (d.channels.set c ((d.channels.get c).grantLocally target priority))
        = neededTotal d.channels c target := committedTotal_set_needed _ _ _
    exact h.of_raise member rfl rfl (needed.le.trans record) fun n q b sending => needed.le.trans (flight n q b sending)
  | periodStarted => exact h.of_period
  | resultsTaken =>
    exact { h with
      flight := fun f sending => ⟨rfl, (h.flight f sending).2⟩
      completed := fun o is done => ⟨(h.completed o is done).1, rfl⟩
      snapshot := nofun }
  | committed c target priority want computing heard asks => exact h.of_commit computing heard asks
  | asked b may => exact { h with asks := may.symm }
  | entered st enters => exact h.of_enters enters
  | stopped t still => exact { h with flight := fun f sending => absurd sending (still f) }
  | computationStarted still => exact h.of_computation still
  | attempted f computing promises =>
    exact { h with
      flight := by
        intro g sending
        obtain rfl := Transmitter.sending.inj sending
        exact ⟨computing, by cases f <;> exact promises⟩ }
  | claimCompleted n q b sending => exact h.of_claim sending
  | leaveCompleted n q code sending => exact h.of_leave sending

/-- A station that draws nothing and asks nothing, whatever its state. -/
theorem withinBound_of_reset (k : Configuration) {st : StationState} {t : Transmitter}
    (still : ∀ f, t ≠ .sending f) :
    Draw.WithinBound { State.reset.draw with config := k, state := st, transmitter := t } where
  applied := le_rfl
  toApply := le_rfl
  flight f sending := absurd sending (still f)
  completed := nofun
  snapshot := nofun
  asks := .inr rfl
  zero _ := rfl
  floor _ := Nat.zero_le _
  nothing _ := rfl

end Sys2Proof.Machine

section
open Sys2Proof Sys2Proof.Machine

/-- Settles O54: every single change to the draw keeps it within the bound of the own record, with the frame in flight, the
gates, the ask and the station state that keep it so. -/
theorem drawWithinTheAnnouncedBoundIsKept : Obligations.DrawWithinTheAnnouncedBoundIsKept := by
  intro s t draws next
  obtain ⟨rests, within⟩ := (drawsWithinBound_iff s).mp draws
  have kept := step_keeps_draw (P := Draw.WithinBound) (fun _ _ => Draw.Step.keeps_withinBound)
    (fun k => withinBound_of_reset k nofun) (withinBound_of_reset _ nofun) rests within next
  exact ⟨(drawsWithinBound_iff t).mpr kept, kept.2.applied⟩

end
end

section
/-! PROOFS. Trip requests that stand, a period start, the end of an on count, and a conversion pass (R106, R110, R117,
R118, R125, R131, R134). -/

namespace Sys2Proof.Machine

/-! ### Which trip requests stand (R134) -/

theorem tripStands_iff (c : Chan) (s : State) : tripStands c s = true ↔ s.outputs.running = true
    ∧ (s.outputs.channels.get c).tripped = false ∧ s.config.tripCount ≤ (s.sense.channels.get c).overdrawCount :=
  decide_eq_true_iff

theorem noTripWaits_iff (s : State) : noTripWaits s = true ↔ ∀ c, (s.outputs.channels.get c).tripped = true
    ∨ (s.sense.channels.get c).overdrawCount < s.config.tripCount := by
  unfold noTripWaits
  rw [List.all_eq_true]
  simp only [Bool.or_eq_true, decide_eq_true_eq]
  exact ⟨fun h c => h c (by simpa using chan_cases c), fun h c _ => h c⟩

/-- No trip waits in a running period exactly when no trip request stands. -/
theorem noTripWaits_iff_none_stands {s : State} (running : s.outputs.running = true) :
    noTripWaits s = true ↔ ∀ c, tripStands c s = false := by
  rw [noTripWaits_iff]
  refine forall_congr' fun c => ?_
  rw [← Bool.not_eq_true, tripStands_iff]
  cases (s.outputs.channels.get c).tripped <;> simp [running]

theorem tripStands_of_noTripWaits {s : State} (h : noTripWaits s = true) (c : Chan) : tripStands c s = false := by
  by_cases running : s.outputs.running = true
  · exact (noTripWaits_iff_none_stands running).mp h c
  · rw [← Bool.not_eq_true, tripStands_iff]
    exact fun stands => running stands.1

theorem takeTripRequests_of_none {s : State} (h : ∀ c, tripStands c s = false) : takeTripRequests s = s := by
  have taken : ∀ c, takeTripRequest c s = s := fun c => takeTripRequest_of_none c s (h c)
  simp only [takeTripRequests, taken]

/-! ### A trip (R110, R125) -/

/-- A trip has been taken, and its head re-check is still to come: the channel at zero, its request ended TRIPPED, the
flags set, and the pass going on where it waited (R110, R125, R131). -/
def State.tripTaken (s : State) (c : Chan) : State := { s with
  demand := { s.demand with
    requests := withoutChannel c s.demand.requests
    lastResults := match requestFor c s.demand.requests with
      | none => s.demand.lastResults
      | some r => s.demand.lastResults.set c { tag := r.tag, code := .tripped } }
  outputs := { s.outputs with channels := s.outputs.channels.set c (s.outputs.channels.get c).trip }
  sense := { s.sense with converter := s.sense.converter.afterTrip c }
  port := { s.port with
    flags := if requestFor c s.demand.requests = none then s.port.flags ||| Event.trip.mask
      else s.port.flags ||| Event.trip.mask ||| Event.result.mask } }

theorem takeTripRequest_of_stands {c : Chan} {s : State} (stands : tripStands c s = true) :
    takeTripRequest c s = headRecheck (s.tripTaken c) := by
  have ended : ∀ t, t = raise .trip (onChannel c Channel.trip (setConverter (s.sense.converter.afterTrip c) s)) →
      endRequestFor c .tripped t = s.tripTaken c := by
    rintro t tripped
    have queue : t.demand = s.demand := by rw [tripped]; rfl
    cases queued : requestFor c s.demand.requests with
    | none =>
      have others : withoutChannel c s.demand.requests = s.demand.requests := by
        rw [← endRequestFor_requests c .tripped s, endRequestFor_of_none .tripped queued]
      rw [endRequestFor_of_none .tripped (queue ▸ queued), tripped]
      simp only [State.tripTaken, queued, others]
      rfl
    | some r =>
      rw [endRequestFor_of_some .tripped (queue ▸ queued), tripped]
      simp only [State.tripTaken, queued]
      rfl
  unfold takeTripRequest tripChannel
  rw [if_pos stands, ended _ rfl]

theorem tripTaken_requests {c : Chan} {s : State} {r : Request} (h : r ∈ (s.tripTaken c).demand.requests) :
    r ∈ s.demand.requests ∧ r.channel ≠ c := mem_withoutChannel.mp h

theorem flagSet_trip_tripTaken (s : State) (c : Chan) : flagSet .trip (s.tripTaken c) = true := by
  by_cases queued : requestFor c s.demand.requests = none
  · simp [flagSet, State.tripTaken, queued, Event.getLsbD_mask]
  · simp [flagSet, State.tripTaken, queued, Event.getLsbD_mask]

/-- A request that ended leaves TRIPPED under its tag, and RESULT (R110, R113). -/
theorem tripTaken_of_queued {s : State} {c : Chan} {r : Request} (queued : requestFor c s.demand.requests = some r) :
    (s.tripTaken c).demand.lastResults.get c = { tag := r.tag, code := .tripped }
      ∧ flagSet .result (s.tripTaken c) = true := by
  constructor
  · simp [State.tripTaken, queued]
  · simp [flagSet, State.tripTaken, queued, Event.getLsbD_mask]

/-! ### Trip requests, one after another -/

/-- A head re-check trips no channel (R106). -/
theorem headRecheck_tripped (s : State) (c : Chan) :
    ((headRecheck s).outputs.channels.get c).tripped = (s.outputs.channels.get c).tripped := by
  apply headRecheck_induction (fun t => (t.outputs.channels.get c).tripped = (s.outputs.channels.get c).tripped)
  · rintro t r rest same - -
    rw [← same]
    exact forall_get_set (P := fun e ch => ch.tripped = (t.outputs.channels.get e).tripped)
      (ch := (t.outputs.channels.get r.channel).grantLocally r.target r.priority) (fun _ => rfl) rfl c
  · rfl

theorem tripStands_headRecheck (c : Chan) (s : State) : tripStands c (headRecheck s) = tripStands c s := by
  have tripped := headRecheck_tripped s c
  obtain ⟨d, chs, f, frame⟩ := headRecheck_frame s
  rw [frame] at tripped ⊢
  simp only [tripStands] at tripped ⊢
  rw [tripped]

/-- A trip request that is taken stands no longer, and the others are as they were. -/
theorem tripStands_takeTripRequest (c d : Chan) (s : State) :
    tripStands d (takeTripRequest c s) = (tripStands d s && decide (d ≠ c)) := by
  cases stands : tripStands c s with
  | false =>
    rw [takeTripRequest_of_none c s stands]
    by_cases same : d = c
    · simp [same, stands]
    · simp [same]
  | true =>
    rw [takeTripRequest_of_stands stands, tripStands_headRecheck]
    simp only [tripStands, State.tripTaken, Four.get_set]
    by_cases same : d = c
    · simp [same, Channel.trip]
    · simp [same]

theorem tripStands_takeTripRequests (c : Chan) (s : State) : tripStands c (takeTripRequests s) = false := by
  unfold takeTripRequests
  simp only [tripStands_takeTripRequest]
  rcases chan_cases c with rfl | rfl | rfl | rfl <;> simp

/-- Trip requests that have been taken do not stand again. -/
theorem takeTripRequests_takeTripRequests (s : State) : takeTripRequests (takeTripRequests s) = takeTripRequests s :=
  takeTripRequests_of_none fun c => tripStands_takeTripRequests c s

/-- A conversion that has begun goes on through a trip (R131). -/
theorem takeTripRequest_converting {c : Chan} (d : Chan) {s : State} (h : s.sense.converter = .converting c) :
    (takeTripRequest d s).sense.converter = .converting c := by
  cases stands : tripStands d s with
  | false => rwa [takeTripRequest_of_none d s stands]
  | true =>
    obtain ⟨q, chs, f, frame⟩ := headRecheck_frame (s.tripTaken d)
    rw [takeTripRequest_of_stands stands, frame]
    simp [State.tripTaken, Converter.afterTrip, h]

theorem takeTripRequests_converting {c : Chan} {s : State} (h : s.sense.converter = .converting c) :
    (takeTripRequests s).sense.converter = .converting c :=
  takeTripRequest_converting 3 (takeTripRequest_converting 2 (takeTripRequest_converting 1
    (takeTripRequest_converting 0 h)))

theorem takeTripRequests_running (s : State) : (takeTripRequests s).outputs.running = s.outputs.running := by
  obtain ⟨v, d, chs, f, frame⟩ := takeTripRequests_frame s
  rw [frame]
  rfl

/-! ### Conversions and their trips (R131, R134) -/

/-- The result of a conversion in the sense monitor, with its trip request still to be handed on. -/
def State.converted (s : State) (c : Chan) (raw : BitVec 10) : State := completeConversion c raw (takeTripRequests s)

theorem exec_conversionComplete_of_converting {s : State} {c : Chan} (h : s.sense.converter = .converting c)
    (raw : BitVec 10) (trip : TripTaking) :
    exec (.conversionComplete raw trip) s = .next (handTripRequest c trip (s.converted c raw)) := by
  rw [exec_conversionComplete, execConversionComplete, h]
  rfl

theorem converted_pending (s : State) (c : Chan) (raw : BitVec 10) : (s.converted c raw).pending = s.pending := by
  obtain ⟨v, d, chs, f, frame⟩ := takeTripRequests_frame s
  unfold State.converted
  rw [frame]
  rfl

theorem handTripRequest_atOnce (c : Chan) (s : State) : handTripRequest c .atOnce s = takeTripRequest c s :=
  if_neg nofun

/-- A trip request is left only to its own row where that stands next (log 5). -/
theorem handTripRequest_of_not_next {c : Chan} {s : State} (trip : TripTaking)
    (h : s.pending.head? ≠ some (.tripRequest c)) : handTripRequest c trip s = takeTripRequest c s :=
  if_neg fun ⟨_, next, _⟩ => h next

/-- The conversion that follows a channel's own does not wait for its trip (R131). -/
theorem nextConversion_ne_tripping (c d : Chan) : nextConversion c ≠ .tripping d := by
  unfold nextConversion
  split <;> nofun

/-- A trip request taken by its own row leaves what it leaves when the conversion takes it (R131, R134). -/
theorem takeTripRequest_of_tripping {c : Chan} {s : State} (converter : s.sense.converter = nextConversion c)
    (stands : tripStands c s = true) : takeTripRequest c (setConverter (.tripping c) s) = takeTripRequest c s := by
  have own : Converter.afterTrip c (.tripping c) = nextConversion c := if_pos rfl
  have other : Converter.afterTrip c (nextConversion c) = nextConversion c := if_neg (nextConversion_ne_tripping c c)
  have same : (setConverter (.tripping c) s).tripTaken c = s.tripTaken c := by
    have left : (setConverter (.tripping c) s).sense.converter.afterTrip c = nextConversion c := own
    have right : s.sense.converter.afterTrip c = nextConversion c := by rw [converter, other]
    simp only [State.tripTaken, left, right]
    rfl
  rw [takeTripRequest_of_stands (s := setConverter (.tripping c) s) stands, takeTripRequest_of_stands stands, same]

/-- Whichever way the trip request of a conversion is handed on, its row leaves the same state (R134). -/
theorem takeTripRequest_handTripRequest {c : Chan} {s : State} (converter : s.sense.converter = nextConversion c)
    (trip : TripTaking) : takeTripRequest c (handTripRequest c trip s) = takeTripRequest c s := by
  unfold handTripRequest
  split
  case isTrue left =>
    obtain ⟨-, -, stands⟩ := left
    exact takeTripRequest_of_tripping converter stands
  case isFalse =>
    exact takeTripRequest_of_none c _ (by rw [tripStands_takeTripRequest]; simp)

/-- A conversion counts for its own channel alone (R132, R134). -/
theorem tripStands_completeConversion_other {c d : Chan} (raw : BitVec 10) (s : State) (other : d ≠ c) :
    tripStands d (completeConversion c raw s) = tripStands d s := by
  simp only [tripStands, completeConversion, setConverter, onSense, Four.get_set, if_neg other]

/-- Where no trip waited before it, a conversion that takes its own trip leaves none waiting (R134). -/
theorem noTripWaits_takeTripRequest {s : State} {c : Chan} (raw : BitVec 10) (running : s.outputs.running = true)
    (quiet : noTripWaits s = true) : noTripWaits (takeTripRequest c (completeConversion c raw s)) = true := by
  have running' : (takeTripRequest c (completeConversion c raw s)).outputs.running = true := by
    obtain ⟨v, d, chs, f, frame⟩ := takeTripRequest_frame c (completeConversion c raw s)
    rw [frame]
    exact running
  refine (noTripWaits_iff_none_stands running').mpr fun d => ?_
  rw [tripStands_takeTripRequest]
  by_cases same : d = c
  · simp [same]
  · rw [tripStands_completeConversion_other raw s same, tripStands_of_noTripWaits quiet d, Bool.false_and]

end Sys2Proof.Machine

section
open Sys2Proof Sys2Proof.Machine

/-- Settles O36: with no trip to take first, a period start applies the levels that the gates allow. -/
theorem periodStartAppliesTheLevels : Obligations.PeriodStartAppliesTheLevels := by
  intro s running quiet
  have first : takeTripRequests s = s := takeTripRequests_of_none (tripStands_of_noTripWaits quiet)
  refine ⟨startPeriod s, ?_, rfl, fun c => ?_⟩
  · rw [exec_periodStart, execPeriodStart, if_pos running, first]
  · refine ⟨Four.get_zipWith _ _ _ _, (Four.get_zipWith _ _ _ _).trans ?_⟩
    dsimp only
    rw [Four.get_zipWith]
    rfl

/-- Settles O37: an on count of 1 to 255 ends within the period, and a pass with no trip to take first begins with
channel 0. -/
theorem withinThePeriodOutputsFallAndThePassBegins : Obligations.WithinThePeriodOutputsFallAndThePassBegins := by
  constructor
  · intro s c running above below
    have falls : (s.outputs.channels.get c).endOnCount = { s.outputs.channels.get c with output := false } :=
      if_pos ⟨above, below⟩
    rw [exec_onCountEnd, execOnCountEnd, if_pos running, onChannel, falls]
  · intro s running quiet idle first
    have none : takeTripRequests s = s := takeTripRequests_of_none (tripStands_of_noTripWaits quiet)
    rw [exec_conversionPass, execConversionPass, if_pos ⟨running, idle, first⟩, none]

/-- Settles O39: a trip by its own row, the two ways in which a conversion hands its trip on, and the trips that stand
before a result or a period. -/
theorem tripDrivesTheChannelToZero : Obligations.TripDrivesTheChannelToZero := by
  refine ⟨?_, ?_, ?_, ?_, ?_⟩
  · intro s c running normal reached
    have stands : tripStands c s = true := (tripStands_iff c s).mpr ⟨running, normal, reached⟩
    have leaves : LeavesChannel c (s.tripTaken c) (headRecheck (s.tripTaken c)) :=
      headRecheck_leavesChannel fun r mem => (tripTaken_requests mem).2
    have sense : (headRecheck (s.tripTaken c)).sense = (s.tripTaken c).sense := by
      obtain ⟨d, chs, f, frame⟩ := headRecheck_frame (s.tripTaken c)
      rw [frame]
    refine ⟨headRecheck (s.tripTaken c), ?_, ?_, ?_, ?_, ?_, ?_, ?_, ?_⟩
    · rw [exec_tripRequest, execTripRequest, takeTripRequest_of_stands stands]
    · obtain ⟨d, chs, f, frame⟩ := headRecheck_frame (s.tripTaken c)
      rw [frame]
      rfl
    · exact leaves.channel.trans (Four.get_set_same _ _ _)
    · intro d other
      have same : (s.tripTaken c).outputs.channels.get d = s.outputs.channels.get d := Four.get_set_other _ _ _ _ other
      rw [(headRecheck_channel (s.tripTaken c) d).2, headRecheck_tripped, same]
      exact ⟨rfl, rfl⟩
    · rw [flagSet_headRecheck (by decide)]
      exact flagSet_trip_tripTaken s c
    · exact fun r mem => (tripTaken_requests (leaves.requests r mem)).symm
    · intro r queued
      obtain ⟨result, flag⟩ := tripTaken_of_queued (c := c) queued
      exact ⟨leaves.lastResult.trans result, leaves.result flag⟩
    · rw [sense]
      exact headRecheck_grants (s.tripTaken c)
  · intro s c raw converting next
    have hands := takeTripRequest_handTripRequest (s := s.converted c raw) rfl .apart
    rw [exec_conversionComplete_of_converting converting, exec_conversionComplete_of_converting converting,
      handTripRequest_atOnce, ← hands]
    rfl
  · intro s c raw converting notNext
    have notNext' : (s.converted c raw).pending.head? ≠ some (.tripRequest c) := by rwa [converted_pending]
    rw [exec_conversionComplete_of_converting converting, exec_conversionComplete_of_converting converting,
      handTripRequest_of_not_next _ notNext', handTripRequest_atOnce]
  · intro s c raw converting running quiet
    refine ⟨_, exec_conversionComplete_of_converting converting raw .atOnce, ?_⟩
    rw [handTripRequest_atOnce, State.converted, takeTripRequests_of_none (tripStands_of_noTripWaits quiet)]
    exact noTripWaits_takeTripRequest raw running quiet
  · intro s t0 t1 t2 t3 first second third fourth
    obtain rfl := Host.Outcome.next.inj first
    obtain rfl := Host.Outcome.next.inj second
    obtain rfl := Host.Outcome.next.inj third
    obtain rfl := Host.Outcome.next.inj fourth
    show (s.outputs.running = true → exec .periodStart s = exec .periodStart (takeTripRequests s))
      ∧ ∀ c raw trip, s.sense.converter = .converting c →
        exec (.conversionComplete raw trip) s = exec (.conversionComplete raw trip) (takeTripRequests s)
    constructor
    · intro running
      rw [exec_periodStart, exec_periodStart, execPeriodStart, execPeriodStart, if_pos running,
        if_pos ((takeTripRequests_running s).trans running), takeTripRequests_takeTripRequests]
    · intro c raw trip converting
      rw [exec_conversionComplete_of_converting converting,
        exec_conversionComplete_of_converting (takeTripRequests_converting converting), State.converted, State.converted,
        takeTripRequests_takeTripRequests]

end
end

section
/-! PROOFS. A conversion's result, and the ways in which its trip request goes on (R125, R131 to R135). -/

namespace Sys2Proof.Machine

/-! ### The measured value, the overdraw and the count (R132 to R135) -/

theorem toNat_clamp_eq (x : Int) :
    (max 0 (min 1023 x)).toNat = if x < 0 then 0 else if 1023 < x then 1023 else x.toNat := by
  split_ifs with negative above
  · rw [max_eq_left (by omega), Int.toNat_zero]
  · rw [min_eq_left above.le]
    rfl
  · rw [min_eq_right (not_lt.mp above), max_eq_right (not_lt.mp negative)]

theorem isOverdraw_eq_decide (raw measured reference tolerance : Nat) :
    isOverdraw raw measured reference tolerance = decide (raw = 1023 ∨ reference + tolerance < measured) :=
  (Bool.decide_or _ _).symm

theorem SenseChannel.convert_eq (raw : Nat) (entry : ChannelEntry) (tripped : Bool) (x : SenseChannel) :
    x.convert raw entry tripped
      = (let difference : Int := (raw : Int) - x.offset.toInt
         let corrected := if difference < 0 then 0 else if 1023 < difference then 1023 else difference.toNat
         let measured := corrected * entry.scale / 1024
         let overdraw := raw = 1023 ∨ x.reference + entry.tolerance < measured
         { x with
            raw := raw, measured := measured, overdraw := decide overdraw
            overdrawCount := if tripped then x.overdrawCount else if overdraw then x.overdrawCount + 1 else 0 }) := by
  simp only [SenseChannel.convert, measuredOf, toNat_clamp_eq, isOverdraw_eq_decide, decide_eq_true_eq]

/-! ### The trip request of a conversion (R131, R134) -/

/-- A conversion asks for a trip by the count that it leaves (R134). -/
theorem tripStands_completeConversion_same (c : Chan) (raw : BitVec 10) (s : State) :
    tripStands c (completeConversion c raw s) = true ↔ s.outputs.running = true
      ∧ (s.outputs.channels.get c).tripped = false
      ∧ s.config.tripCount ≤ ((s.sense.channels.get c).convert raw.toNat (s.config.entries.get c)
          (s.outputs.channels.get c).tripped).overdrawCount := by
  simp [tripStands_iff, completeConversion]

/-- A conversion that asks for no trip hands none on, whatever its operand. -/
theorem handTripRequest_of_none {c : Chan} {s : State} (trip : TripTaking) (none : tripStands c s = false) :
    handTripRequest c trip s = s := by
  unfold handTripRequest
  rw [if_neg (by simp [none]), takeTripRequest_of_none c s none]

/-- A trip request is left to its own row, and the converter waits for it (R131, log 5). -/
theorem handTripRequest_apart {c : Chan} {s : State} (stands : tripStands c s = true)
    (next : s.pending.head? = some (.tripRequest c)) : handTripRequest c .apart s = setConverter (.tripping c) s :=
  if_pos ⟨rfl, next, stands⟩

/-- A trip request that is not left to its own row is taken with the conversion (R134). -/
theorem handTripRequest_of_atOnce_or_not_next {c : Chan} {s : State} {trip : TripTaking}
    (taken : trip = .atOnce ∨ s.pending.head? ≠ some (.tripRequest c)) :
    handTripRequest c trip s = takeTripRequest c s := by
  obtain rfl | notNext := taken
  · exact handTripRequest_atOnce c s
  · exact handTripRequest_of_not_next trip notNext

theorem converted_of_noTripWaits {s : State} (quiet : noTripWaits s = true) (c : Chan) (raw : BitVec 10) :
    s.converted c raw = completeConversion c raw s := by
  rw [State.converted, takeTripRequests_of_none (tripStands_of_noTripWaits quiet)]

end Sys2Proof.Machine

section
open Sys2Proof Sys2Proof.Machine

/-- Settles O38: a conversion's result, without a trip request, with one left to its own row, and with one that the
conversion itself takes. -/
theorem conversionIsScaledAndCounted : Obligations.ConversionIsScaledAndCounted := by
  intro s c raw converting quiet old difference corrected measured overdraw count asks converted
  have record : old.convert raw.toNat (s.config.entries.get c) (s.outputs.channels.get c).tripped
      = { old with raw := raw.toNat, measured := measured, overdraw := decide overdraw, overdrawCount := count } :=
    SenseChannel.convert_eq _ _ _ _
  have result (v : Converter) : setConverter v (completeConversion c raw s) = converted v := by
    unfold converted
    rw [← record]
    rfl
  have stands : tripStands c (completeConversion c raw s) = true ↔ asks := by
    rw [tripStands_completeConversion_same, record]
  have answers (trip : TripTaking) :
      exec (.conversionComplete raw trip) s = .next (handTripRequest c trip (completeConversion c raw s)) := by
    rw [exec_conversionComplete_of_converting converting, converted_of_noTripWaits quiet]
  refine ⟨fun quietly trip => ?_, fun asking next => ?_, fun asking trip taken => ?_⟩
  · rw [answers, handTripRequest_of_none trip (Bool.eq_false_iff.mpr (mt stands.mp quietly)), ← result]
    rfl
  · rw [answers, handTripRequest_apart (stands.mpr asking) next, result]
  · rw [answers, handTripRequest_of_atOnce_or_not_next (s := completeConversion c raw s) taken, ← result,
      exec_tripRequest, execTripRequest, takeTripRequest_of_tripping rfl (stands.mpr asking)]

end
end

section
/-! PROOFS. The state after reset, the beginning and the end of a reset, and the two ends of start-up (R82, R130, R139,
R144, R149). -/

namespace Sys2Proof.Machine

/-! ### Resets (R139, R149, R151) -/

theorem Link.reset_eq (l : Link) : l.reset = if l = .released then .released else .ignored := by
  cases l with
  | released => rfl
  | ignored | awaiting | reading | writing => exact (if_neg (by simp)).symm

theorem ResetCause.lowersSupply_eq (cause : ResetCause) :
    cause.lowersSupply = decide (cause = .power ∨ cause = .supply) := by cases cause <;> rfl

theorem Phase.held_iff (p : Phase) : p.held = true ↔ ∃ causes, p = .inReset causes := by
  cases p with
  | inReset causes => exact iff_of_true rfl ⟨causes, rfl⟩
  | startUp | running => simp [Phase.held]

/-- Outside a reset a cause returns the blocks to their values after reset (R149). -/
theorem beginReset_of_not_held (cause : ResetCause) {s : State} (outside : s.phase.held = false) :
    beginReset cause s = resetBlocks cause s := by
  unfold beginReset
  cases phase : s.phase with
  | inReset causes => rw [phase] at outside; cases outside
  | startUp | running => rfl

/-- Within a reset a cause only prolongs it (R149, log 6). -/
theorem beginReset_of_held (cause : ResetCause) {s : State} (held : s.phase.held = true) :
    ∃ causes, beginReset cause s = { s with
      phase := .inReset causes
      store := { s.store with supplyLow := s.store.supplyLow || cause.lowersSupply } } := by
  obtain ⟨causes, phase⟩ := s.phase.held_iff.mp held
  unfold beginReset
  rw [phase]
  exact ⟨_, rfl⟩

/-- The blocks after a reset, with the supply mark and the select pin written out (log 7, log 11). -/
theorem resetBlocks_eq (cause : ResetCause) (s : State) : resetBlocks cause s = { State.reset with
    phase := .inReset (CausesLasting.none.add cause)
    store := { State.reset.store with
      cells := s.store.cells, resetCause := cause
      supplyLow := s.store.supplyLow || decide (cause = .power ∨ cause = .supply) }
    port := { State.reset.port with link := if s.port.link = .released then .released else .ignored }
    freeIndex := s.freeIndex
    pending := s.pending } := by
  rw [resetBlocks, Link.reset_eq, ResetCause.lowersSupply_eq]
  rfl

theorem endReset_of_held (straps : Station) {s : State} (held : s.phase.held = true) :
    endReset straps s
      = { s with phase := .startUp, store := { s.store with strap := straps, station := straps } } := by
  obtain ⟨causes, phase⟩ := s.phase.held_iff.mp held
  unfold endReset
  rw [phase]

/-- The three rows that begin a reset, each with its cause. -/
theorem exec_reset_row {i : Instr} {cause : ResetCause}
    (row : i = .powerOn ∧ cause = .power ∨ i = .resetPinAsserted ∧ cause = .pin ∨ i = .supplyReset ∧ cause = .supply)
    (s : State) : exec i s = .next (beginReset cause s) := by
  obtain ⟨rfl, rfl⟩ | ⟨rfl, rfl⟩ | ⟨rfl, rfl⟩ := row
  · rfl
  · rfl
  · rfl

/-! ### The ends of start-up (R82, R117, R118, R130, R144) -/

theorem endStartUp_of_loaded {s : State} {cause : FaultCause} {l : Loaded} (phase : s.phase = .startUp)
    (passes : startUpChecks s.store.cells s.store.strap = (cause, some l)) : endStartUp s = putInForce l s := by
  unfold endStartUp
  rw [phase]
  dsimp only
  rw [passes]

theorem endStartUp_of_failed {s : State} {cause : FaultCause} (phase : s.phase = .startUp)
    (fails : startUpChecks s.store.cells s.store.strap = (cause, none)) : endStartUp s = failStartUp cause s := by
  unfold endStartUp
  rw [phase]
  dsimp only
  rw [fails]

theorem loadOffsets_get (cells : List Host.Cell) (x : Four SenseChannel) (c : Chan) :
    (loadOffsets cells x).get c = { x.get c with offset := Memory.read cells (0xE0 + c.toNat) } := by
  rcases chan_cases c with rfl | rfl | rfl | rfl <;> rfl

/-- The first period start applies each channel's level by the entries just loaded (R117, R118). -/
theorem putInForce_channel (l : Loaded) (s : State) (c : Chan) :
    (putInForce l s).outputs.channels.get c
      = (s.outputs.channels.get c).startPeriod (l.config.entries.get c) :=
  Four.get_zipWith _ _ _ c

/-- The first period start takes each level as the sense reference, beside the factory offset (R130, R131). -/
theorem putInForce_sense (l : Loaded) (s : State) (c : Chan) :
    (putInForce l s).sense.channels.get c = { s.sense.channels.get c with
      reference := (s.outputs.channels.get c).levelToApply
      offset := Memory.read s.store.cells (0xE0 + c.toNat) } := by
  have sensed : (putInForce l s).sense.channels.get c
      = { (loadOffsets s.store.cells s.sense.channels).get c with
          reference := ((putInForce l s).outputs.channels.get c).applied } := Four.get_zipWith _ _ _ c
  rw [sensed, loadOffsets_get, putInForce_channel]
  rfl

end Sys2Proof.Machine

section
open Sys2Proof Sys2Proof.Machine

/-- Settles O5: every value of the tables stands in the definition of the state after reset, and like things are alike at
every place. -/
theorem stateAfterResetHoldsTheTables : Obligations.StateAfterResetHoldsTheTables := by
  refine ⟨by decide, fun n => Sixteen.get_same Row.cleared n, ⟨fun n => Sixteen.get_same Row.cleared n, rfl, rfl, rfl⟩,
    by decide, rfl, ⟨rfl, fun c => Four.get_same _ c⟩, ⟨rfl, fun c => Four.get_same Channel.reset c⟩,
    ⟨rfl, fun c => ?_⟩, by decide, by decide⟩
  have record : State.reset.sense.channels.get c = SenseChannel.reset := Four.get_same SenseChannel.reset c
  rw [record]
  exact ⟨rfl, rfl, rfl, rfl, rfl⟩

/-- Settles O60: at reset nothing is committed, applied or queued, every row is cleared, and the store is erased. -/
theorem resetMeetsEveryKeptCondition : Obligations.ResetMeetsEveryKeptCondition := by
  have absent : Sixteen.get State.reset.peers State.reset.store.station = Row.cleared := Sixteen.get_same Row.cleared _
  exact ⟨by decide, rfl, by decide, by decide, (ownRowAbsent_iff State.reset).mpr ⟨by decide, absent⟩, Memory.wf_nil⟩

/-- Settles O6: a cause outside a reset is `resetBlocks`, one within a reset adds itself to the causes that last, and the
end of a reset reads the straps. -/
theorem resetsBeginAndEnd : Obligations.ResetsBeginAndEnd := by
  refine ⟨fun i cause s row outside => ?_, fun i s row held => ?_, fun straps s held => ?_⟩
  · refine ⟨resetBlocks cause s, ?_, ?_, rfl, ?_⟩
    · rw [exec_reset_row row, beginReset_of_not_held cause outside]
    · rw [resetBlocks_eq]
    · rw [resetBlocks_eq]
  · obtain ⟨cause, begins⟩ : ∃ cause, exec i s = .next (beginReset cause s) := by
      obtain rfl | rfl | rfl := row
      · exact ⟨.power, rfl⟩
      · exact ⟨.pin, rfl⟩
      · exact ⟨.supply, rfl⟩
    obtain ⟨causes, prolonged⟩ := beginReset_of_held cause held
    rw [begins, prolonged]
    exact ⟨_, rfl, rfl, rfl⟩
  · rw [exec_resetEnd, execResetEnd, endReset_of_held straps held]

/-- Settles O7: start-up ends in `putInForce` or in `failStartUp`, and the first period start reads each channel by the
entries just loaded. -/
theorem startUpEndsInListenOrFault : Obligations.StartUpEndsInListenOrFault := by
  refine ⟨fun s cause l phase passes => ?_, fun s cause phase fails => ?_⟩
  · refine ⟨putInForce l s, ?_, rfl, fun c => ⟨?_, ?_⟩⟩
    · rw [exec_startUpEnd, execStartUpEnd, endStartUp_of_loaded phase passes]
    · rw [putInForce_channel]
      rfl
    · rw [putInForce_sense]
      rfl
  · rw [exec_startUpEnd, execStartUpEnd, endStartUp_of_failed phase fails]
    rfl

end
end

section
/-! PROOFS. The checks of start-up: the header, the record list, the fields and their relations (R140 to R144, R165). -/

namespace Sys2Proof.Machine

/-! ### The header (R140) -/

theorem storeWord_lt (cells : List Host.Cell) (a : Nat) : storeWord cells a < 65536 := by
  unfold storeWord
  omega

/-- The header's length is in its range, and its check value is the CRC-16 of the record area (R140). -/
def HeaderHolds (cells : List Host.Cell) : Prop :=
  1 ≤ storeWord cells 0 ∧ storeWord cells 0 ≤ 220
    ∧ (crc16 (Memory.readRun cells 4 (storeWord cells 0))).toNat = storeWord cells 2

/-- A check value of the store against a CRC-16, as numbers. -/
theorem eq_half_storeWord (c : Half) (cells : List Host.Cell) (a : Nat) :
    c = half (storeWord cells a) ↔ c.toNat = storeWord cells a := by
  rw [half, BitVec.toNat_eq, BitVec.toNat_ofNat, Nat.mod_eq_of_lt (storeWord_lt cells a)]

/-- The checks behind the header: the fields in their ranges, and the two relations (R142 to R144). -/
def recordChecks (strap : Station) (circuit station : List Byte) : FaultCause × Option Loaded :=
  let c := readConfiguration circuit station
  let rate := field8 circuit 4
  let override := field8 station 0
  if fieldsInRange c rate override = false then (.valueRange, none)
  else if c.lease + c.retire < c.isolation + 2 then (.timingConstraint, none)
  else if c.capacity < c.floor ∨ (c.entries.toList.map ChannelEntry.max).sum < c.floor then (.floorRange, none)
  else (.none, some { config := c, rate := rateOfCode rate,
                      station := if override = 255 then strap else BitVec.ofNat 4 override })

section Header
variable {cells : List Host.Cell} (strap : Station)

theorem header_length (cells : List Host.Cell) : field16 (Memory.readRun cells 0 4) 0 = storeWord cells 0 :=
  field16_readRun cells 0 (by omega)

theorem header_check (cells : List Host.Cell) : field16 (Memory.readRun cells 0 4) 2 = storeWord cells 2 :=
  field16_readRun cells 0 (by omega)

/-- Start-up's checks where the header fails (R140). -/
theorem startUpChecks_of_not_header (fails : ¬HeaderHolds cells) : startUpChecks cells strap = (.storeCrc, none) := by
  unfold startUpChecks
  simp only [header_length, header_check]
  split
  case isTrue => rfl
  case isFalse length =>
    rw [not_or, Nat.not_lt] at length
    have wrong : crc16 (Memory.readRun cells 4 (storeWord cells 0)) ≠ half (storeWord cells 2) := fun same =>
      fails ⟨Nat.one_le_iff_ne_zero.mpr length.1, length.2, (eq_half_storeWord _ _ _).mp same⟩
    rw [if_pos wrong]

/-- Start-up's checks where the header holds and the record list does not hold the two records (R141). -/
theorem startUpChecks_of_no_records (header : HeaderHolds cells)
    (missing : ¬∃ ci st, StoreRecords cells (storeWord cells 0) ci st) :
    startUpChecks cells strap = (.storeFormat, none) := by
  obtain ⟨positive, small, check⟩ := header
  unfold startUpChecks
  simp only [header_length, header_check]
  rw [if_neg (by omega), if_neg (not_not.mpr ((eq_half_storeWord _ _ _).mpr check))]
  split
  case h_1 circuit station walk =>
    obtain ⟨ci, st, records, -⟩ := (walkRecords_eq_some _ _ _ _).mp walk
    exact absurd ⟨ci, st, records⟩ missing
  case h_2 => rfl

/-- Start-up's checks where the header holds and the two records are found (R141). -/
theorem startUpChecks_of_records (header : HeaderHolds cells) {ci st : Nat}
    (records : StoreRecords cells (storeWord cells 0) ci st) :
    startUpChecks cells strap = recordChecks strap (Memory.readRun cells ci 8) (Memory.readRun cells st 34) := by
  have walk := (walkRecords_eq_some cells (storeWord cells 0) _ _).mpr ⟨ci, st, records, rfl, rfl⟩
  obtain ⟨positive, small, check⟩ := header
  unfold startUpChecks
  simp only [header_length, header_check]
  rw [if_neg (by omega), if_neg (not_not.mpr ((eq_half_storeWord _ _ _).mpr check)), walk]
  rfl

theorem recordChecks_ne_storeCrc (circuit station : List Byte) : (recordChecks strap circuit station).1 ≠ .storeCrc := by
  unfold recordChecks
  dsimp only
  split_ifs <;> simp

/-- The header alone decides STORE_CRC (R140). -/
theorem startUpChecks_storeCrc_iff (cells : List Host.Cell) :
    (startUpChecks cells strap).1 = .storeCrc ↔ ¬HeaderHolds cells := by
  refine ⟨fun cause header => ?_, fun fails => by rw [startUpChecks_of_not_header strap fails]⟩
  by_cases found : ∃ ci st, StoreRecords cells (storeWord cells 0) ci st
  · obtain ⟨ci, st, records⟩ := found
    rw [startUpChecks_of_records strap header records] at cause
    exact recordChecks_ne_storeCrc strap _ _ cause
  · rw [startUpChecks_of_no_records strap header found] at cause
    cases cause

end Header

theorem Memory.readRun_congr {cells other : List Host.Cell} : ∀ n p,
    (∀ a, p ≤ a → a < p + n → Memory.read other a = Memory.read cells a) →
    Memory.readRun other p n = Memory.readRun cells p n
  | 0, _, _ => rfl
  | n + 1, p, same => by
    rw [Memory.readRun, Memory.readRun, same p le_rfl (by omega),
      Memory.readRun_congr n (p + 1) fun a above below => same a (by omega) (by omega)]

/-- Start-up reads no byte at or beyond the end of the record area (R140). -/
theorem startUpChecks_congr {cells other : List Host.Cell} (strap : Station)
    (same : ∀ a, a < 4 + storeWord cells 0 → Memory.read other a = Memory.read cells a) :
    startUpChecks other strap = startUpChecks cells strap := by
  have header : Memory.readRun other 0 4 = Memory.readRun cells 0 4 :=
    Memory.readRun_congr 4 0 fun a _ below => same a (by omega)
  have area : Memory.readRun other 4 (storeWord cells 0) = Memory.readRun cells 4 (storeWord cells 0) :=
    Memory.readRun_congr _ 4 fun a _ below => same a below
  unfold startUpChecks
  simp only [header, header_length, area]

/-! ### The fields and their relations (R142, R143, Table 9-2) -/

/-- Every field is in its range of Table 9-2; the rate code and the station override stand beside the configuration. -/
def Configuration.InRange (c : Configuration) (rate override : Nat) : Prop :=
  1 ≤ c.budget ∧ c.budget ≤ 4095 ∧ c.reserve < c.budget ∧ rate ≤ 4
    ∧ 2 ≤ c.lease ∧ c.lease ≤ 8 ∧ 2 ≤ c.retire ∧ c.retire ≤ 32 ∧ 2 ≤ c.isolation ∧ c.isolation ≤ 16
    ∧ (override ≤ 15 ∨ override = 255) ∧ c.floor ≤ 4095 ∧ c.period ≤ 4
    ∧ (c.askLimit = 0 ∨ 4 ≤ c.askLimit) ∧ 1 ≤ c.tripCount ∧ c.tripCount ≤ 8
    ∧ ∀ n : Chan, 1 ≤ (c.entries.get n).rating ∧ (c.entries.get n).rating ≤ 1023
        ∧ (c.entries.get n).max ≤ (c.entries.get n).rating
        ∧ 1 ≤ (c.entries.get n).scale ∧ (c.entries.get n).scale ≤ 4095

/-- I + 2 is at most L + R (R143). -/
def Configuration.Timed (c : Configuration) : Prop := c.isolation + 2 ≤ c.lease + c.retire

/-- The floor is within the capacity and within the sum of the maxima (R143). -/
def Configuration.Floored (c : Configuration) : Prop :=
  c.floor ≤ c.budget - c.reserve
    ∧ c.floor ≤ (c.entries.get 0).max + (c.entries.get 1).max + (c.entries.get 2).max + (c.entries.get 3).max

theorem fieldsInRange_iff (c : Configuration) (rate override : Nat) :
    fieldsInRange c rate override = true ↔ c.InRange rate override := by
  simp only [fieldsInRange, Configuration.InRange, Bool.and_eq_true, decide_eq_true_eq, Four.all_toList, entryInRange,
    Nat.add_one_le_iff, and_assoc]

theorem sum_of_maxima (e : Four ChannelEntry) : (e.toList.map ChannelEntry.max).sum
    = (e.get 0).max + (e.get 1).max + (e.get 2).max + (e.get 3).max := by
  simp [Four.toList, Four.get, Nat.add_assoc]

theorem not_floored_iff (c : Configuration) :
    (c.capacity < c.floor ∨ (c.entries.toList.map ChannelEntry.max).sum < c.floor) ↔ ¬c.Floored := by
  rw [sum_of_maxima, Configuration.Floored, not_and_or, Nat.not_le, Nat.not_le]
  rfl

/-- The rate code of Table 1-2. -/
theorem rateOfCode_eq (code : Nat) : rateOfCode code = match code with
    | 0 => some .b9600 | 1 => some .b19200 | 2 => some .b38400 | 3 => some .b57600 | 4 => some .b115200
    | _ => none := by
  match code with
  | 0 | 1 | 2 | 3 | 4 => rfl
  | n + 5 => simp [rateOfCode]

theorem rateOfCode_ne_none {code : Nat} (h : code ≤ 4) : rateOfCode code ≠ none := by
  interval_cases code <;> simp [rateOfCode]

/-- What start-up loads from the value bytes of the two records where every check passes (R144). -/
def loadedFrom (strap : Station) (circuit station : List Byte) : Loaded where
  config := readConfiguration circuit station
  rate := rateOfCode (field8 circuit 4)
  station := if field8 station 0 = 255 then strap else BitVec.ofNat 4 (field8 station 0)

section Records
variable (strap : Station) {circuit station : List Byte}

theorem recordChecks_of_not_inRange
    (out : ¬(readConfiguration circuit station).InRange (field8 circuit 4) (field8 station 0)) :
    recordChecks strap circuit station = (.valueRange, none) :=
  if_pos (Bool.eq_false_iff.mpr (mt (fieldsInRange_iff _ _ _).mp out))

variable (range : (readConfiguration circuit station).InRange (field8 circuit 4) (field8 station 0))
include range

theorem recordChecks_of_not_timed (late : ¬(readConfiguration circuit station).Timed) :
    recordChecks strap circuit station = (.timingConstraint, none) := by
  unfold recordChecks
  dsimp only
  rw [if_neg (by simp [(fieldsInRange_iff _ _ _).mpr range]), if_pos (Nat.lt_of_not_le late)]

theorem recordChecks_of_not_floored (timed : (readConfiguration circuit station).Timed)
    (high : ¬(readConfiguration circuit station).Floored) :
    recordChecks strap circuit station = (.floorRange, none) := by
  unfold recordChecks
  dsimp only
  rw [if_neg (by simp [(fieldsInRange_iff _ _ _).mpr range]), if_neg (Nat.not_lt.mpr timed),
    if_pos ((not_floored_iff _).mpr high)]

theorem recordChecks_of_passed (timed : (readConfiguration circuit station).Timed)
    (floored : (readConfiguration circuit station).Floored) :
    recordChecks strap circuit station = (.none, some (loadedFrom strap circuit station)) := by
  unfold recordChecks
  dsimp only
  rw [if_neg (by simp [(fieldsInRange_iff _ _ _).mpr range]), if_neg (Nat.not_lt.mpr timed),
    if_neg (mt (not_floored_iff _).mp (not_not.mpr floored))]
  rfl

end Records

/-- Whatever is loaded has passed every check (R142, R143). -/
theorem passed_of_recordChecks {strap : Station} {circuit station : List Byte} {cause : FaultCause} {l : Loaded}
    (loads : recordChecks strap circuit station = (cause, some l)) :
    cause = .none ∧ l = loadedFrom strap circuit station
      ∧ (readConfiguration circuit station).InRange (field8 circuit 4) (field8 station 0)
      ∧ (readConfiguration circuit station).Timed ∧ (readConfiguration circuit station).Floored := by
  by_cases range : (readConfiguration circuit station).InRange (field8 circuit 4) (field8 station 0)
  · by_cases timed : (readConfiguration circuit station).Timed
    · by_cases floored : (readConfiguration circuit station).Floored
      · rw [recordChecks_of_passed strap range timed floored] at loads
        cases loads
        exact ⟨rfl, rfl, range, timed, floored⟩
      · rw [recordChecks_of_not_floored strap range timed floored] at loads
        cases loads
    · rw [recordChecks_of_not_timed strap range timed] at loads
      cases loads
  · rw [recordChecks_of_not_inRange strap range] at loads
    cases loads

/-- Start-up loads only what stands in two records that have passed every check (R141 to R144). -/
theorem records_of_loaded {cells : List Host.Cell} {strap : Station} {cause : FaultCause} {l : Loaded}
    (loads : startUpChecks cells strap = (cause, some l)) :
    ∃ circuit station, recordChecks strap circuit station = (cause, some l) := by
  by_cases header : HeaderHolds cells
  · by_cases found : ∃ ci st, StoreRecords cells (storeWord cells 0) ci st
    · obtain ⟨ci, st, records⟩ := found
      exact ⟨_, _, (startUpChecks_of_records strap header records).symm.trans loads⟩
    · rw [startUpChecks_of_no_records strap header found] at loads
      cases loads
  · rw [startUpChecks_of_not_header strap header] at loads
    cases loads

/-! ### The fields of the two records, by address (R144, R165, Tables 11-4 to 11-6) -/

/-- A channel's entry, its four fields from an address on. -/
def entryAt (cells : List Host.Cell) (a : Nat) : ChannelEntry where
  rating := storeWord cells a
  max := storeWord cells (a + 2)
  scale := storeWord cells (a + 4)
  tolerance := (Memory.read cells (a + 6)).toNat

/-- The configuration in the value bytes of a CIRCUIT and a STATION record that begin at these addresses. -/
def configurationAt (cells : List Host.Cell) (ci st : Nat) : Configuration where
  budget := storeWord cells ci
  reserve := storeWord cells (ci + 2)
  lease := (Memory.read cells (ci + 5)).toNat
  retire := (Memory.read cells (ci + 6)).toNat
  isolation := (Memory.read cells (ci + 7)).toNat
  floor := storeWord cells (st + 1)
  period := (Memory.read cells (st + 3)).toNat
  askLimit := (Memory.read cells (st + 4)).toNat
  tripCount := (Memory.read cells (st + 5)).toNat
  entries := ⟨entryAt cells (st + 6), entryAt cells (st + 13), entryAt cells (st + 20), entryAt cells (st + 27)⟩
  circuitCode := crc16 (Memory.readRun cells ci 8)

/-- The entries stand seven bytes apart (R165). -/
theorem readEntry_readRun (cells : List Host.Cell) (st : Nat) {n : Nat} (h : n ≤ 3) :
    readEntry (Memory.readRun cells st 34) n = entryAt cells (st + (6 + 7 * n)) := by
  unfold readEntry entryAt
  rw [field16_readRun cells st (by omega), field16_readRun cells st (by omega), field16_readRun cells st (by omega),
    field8_readRun cells st (by omega)]
  rw [show st + (8 + 7 * n) = st + (6 + 7 * n) + 2 by omega, show st + (10 + 7 * n) = st + (6 + 7 * n) + 4 by omega,
    show st + (12 + 7 * n) = st + (6 + 7 * n) + 6 by omega]

theorem readConfiguration_readRun (cells : List Host.Cell) (ci st : Nat) :
    readConfiguration (Memory.readRun cells ci 8) (Memory.readRun cells st 34) = configurationAt cells ci st := by
  simp (disch := omega) only [readConfiguration, field16_readRun, field8_readRun, readEntry_readRun]
  rfl

end Sys2Proof.Machine

section
open Sys2Proof Sys2Proof.Machine

/-- Settles O8: STORE_CRC is the cause exactly where `HeaderHolds` fails, and the checks read the header and the record
area alone. -/
theorem headerDecidesStoreCrc : Obligations.HeaderDecidesStoreCrc := by
  intro cells strap length check
  refine ⟨?_, fun _ _ other same => startUpChecks_congr strap same⟩
  have fails : ¬HeaderHolds cells ↔ length = 0 ∨ 220 < length
      ∨ (crc16 (Memory.readRun cells 4 length)).toNat ≠ check := by
    show ¬(1 ≤ length ∧ length ≤ 220 ∧ (crc16 (Memory.readRun cells 4 length)).toNat = check) ↔ _
    omega
  exact (startUpChecks_storeCrc_iff strap cells).trans fails

/-- Settles O9: by `passed_of_recordChecks` for the ranges, and by the lemma for each check that fails first. -/
theorem startUpLoadsOnlyValuesInRange : Obligations.StartUpLoadsOnlyValuesInRange := by
  constructor
  · intro cells strap cause l loads
    obtain ⟨circuit, station, records⟩ := records_of_loaded loads
    obtain ⟨rfl, rfl, range, timed, floored⟩ := passed_of_recordChecks records
    obtain ⟨budget, top, reserve, rate, lease, lease8, retire, retire32, isolation, isolation16, -, -, period, limit,
      trip, trip8, entries⟩ := range
    exact ⟨rfl, ⟨budget, top, reserve, rateOfCode_ne_none rate⟩,
      ⟨lease, lease8, retire, retire32, isolation, isolation16, timed⟩, ⟨period, limit, trip, trip8⟩, floored, entries⟩
  · intro cells strap length headerHolds
    refine ⟨startUpChecks_of_not_header strap, startUpChecks_of_no_records strap, fun header ci st records => ?_⟩
    intro at8 at16 entry held inRange timed floored
    have checks := startUpChecks_of_records strap header records
    have config : readConfiguration (Memory.readRun cells ci 8) (Memory.readRun cells st 34) = held :=
      readConfiguration_readRun cells ci st
    have rate : field8 (Memory.readRun cells ci 8) 4 = at8 (ci + 4) := field8_readRun cells ci (by omega)
    have override : field8 (Memory.readRun cells st 34) 0 = at8 st := field8_readRun cells st (by omega)
    have range : (readConfiguration (Memory.readRun cells ci 8) (Memory.readRun cells st 34)).InRange
        (field8 (Memory.readRun cells ci 8) 4) (field8 (Memory.readRun cells st 34) 0) ↔ inRange := by
      rw [config, rate, override]
      rfl
    have timing : (readConfiguration (Memory.readRun cells ci 8) (Memory.readRun cells st 34)).Timed ↔ timed := by
      rw [config]
      rfl
    have floor : (readConfiguration (Memory.readRun cells ci 8) (Memory.readRun cells st 34)).Floored ↔ floored := by
      rw [config]
      rfl
    refine ⟨fun out => ?_, fun inside late => ?_, fun inside intime high => ?_, fun inside intime low => ?_⟩
    · rw [checks, recordChecks_of_not_inRange strap (mt range.mp out)]
    · rw [checks, recordChecks_of_not_timed strap (range.mpr inside) (mt timing.mp late)]
    · rw [checks, recordChecks_of_not_floored strap (range.mpr inside) (timing.mpr intime) (mt floor.mp high)]
    · have loads := recordChecks_of_passed strap (range.mpr inside) (timing.mpr intime) (floor.mpr low)
      rw [loadedFrom, config, rate, override, rateOfCode_eq] at loads
      exact checks.trans loads

end
end

section
/-! PROOFS. STORE_WRITE, RESTART and a byte that is no command code; the key, the ends of a write operation and the supply
(R138, R145 to R150, R154). -/

namespace Sys2Proof.Machine

/-! ### STORE_WRITE (R146) -/

section StoreWrite
variable {s : State}

theorem storeWrite_of_locked (key : s.store.key ≠ .unlocked) : storeWrite s = (.refusedLocked, s) := if_pos key

variable (key : s.store.key = .unlocked)
include key

theorem storeWrite_of_not_stopped (running : ¬(s.member.state = .parked ∨ s.member.state = .fault)) :
    storeWrite s = (.refusedState, s) := by
  unfold storeWrite
  rw [if_neg (not_not.mpr key), if_pos (not_or.mp running)]

variable (stopped : s.member.state = .parked ∨ s.member.state = .fault)
include stopped

theorem storeWrite_of_protected (address : 0xE0 ≤ s.port.storeAddr.toNat) :
    storeWrite s = (.refusedProtected, s) := by
  unfold storeWrite
  rw [if_neg (not_not.mpr key), if_neg (not_and_or.mpr (stopped.imp not_not.mpr not_not.mpr)), if_pos address]

variable (address : s.port.storeAddr.toNat < 0xE0)
include address

theorem storeWrite_of_lowSupply (low : s.store.supplyLow = true) : storeWrite s = (.refusedLowSupply, s) := by
  unfold storeWrite
  rw [if_neg (not_not.mpr key), if_neg (not_and_or.mpr (stopped.imp not_not.mpr not_not.mpr)),
    if_neg (Nat.not_le.mpr address), if_pos low]

variable (supply : s.store.supplyLow = false)
include supply

theorem storeWrite_of_busy (busy : s.store.write ≠ none) : storeWrite s = (.refusedBusy, s) := by
  unfold storeWrite
  rw [if_neg (not_not.mpr key), if_neg (not_and_or.mpr (stopped.imp not_not.mpr not_not.mpr)),
    if_neg (Nat.not_le.mpr address), if_neg (Bool.eq_false_iff.mp supply), if_pos (Option.isSome_iff_ne_none.mpr busy)]

/-- The write that an accepted STORE_WRITE begins (R146). -/
theorem storeWrite_of_accepted (idle : s.store.write = none) : storeWrite s = (.accepted, { s with
    store := { s.store with
      write := some { address := s.port.storeAddr, data := s.port.writeData }, writeAddress := s.port.storeAddr } }) := by
  unfold storeWrite
  rw [if_neg (not_not.mpr key), if_neg (not_and_or.mpr (stopped.imp not_not.mpr not_not.mpr)),
    if_neg (Nat.not_le.mpr address), if_neg (Bool.eq_false_iff.mp supply), if_neg (by simp [idle])]
  rfl

end StoreWrite

theorem exec_storeWrite_at_cmd {s : State} (link : s.port.link = .writing 0x1D) : exec .storeWrite s
    = .next (setResult (storeWrite (s.cmdTaken 7)).1 (storeWrite (s.cmdTaken 7)).2) := by
  rw [exec_storeWrite, execStoreWrite, takeCommand_at_cmd link]

/-! ### RESTART (R150) -/

theorem restartRefusal_of_not_stopped {s : State} (running : ¬(s.member.state = .parked ∨ s.member.state = .fault)) :
    restartRefusal s = some .refusedState := by
  unfold restartRefusal
  split
  case h_1 parked => exact absurd (.inl parked) running
  case h_2 fault => exact absurd (.inr fault) running
  all_goals rfl

theorem restartRefusal_of_stopped {s : State} (stopped : s.member.state = .parked ∨ s.member.state = .fault) :
    restartRefusal s = if s.store.write.isSome then some .refusedBusy else none := by
  unfold restartRefusal
  rcases stopped with state | state <;> rw [state]

/-- A refused RESTART is answered with its code (R154). -/
theorem exec_restart_of_refused {s : State} {code : CmdResult} (link : s.port.link = .writing 0x1D)
    (refused : restartRefusal s = some code) : exec .restart s = .next (setResult code (s.cmdTaken 8)) := by
  rw [exec_restart, execRestart, refused]
  exact congrArg Host.Outcome.next (takeCommand_at_cmd link 8 _)

/-- An accepted RESTART begins its reset once its byte has been taken (R149, R150). -/
theorem exec_restart_of_accepted {s : State} (link : s.port.link = .writing 0x1D) (accepted : restartRefusal s = none) :
    exec .restart s = .next (beginReset .restart (onPort (LocalPort.takeByte 0x1D) s)) := by
  rw [exec_restart, execRestart, accepted, takeWrite, link]
  rfl

/-! ### The key, the ends of a write operation, and the supply (R138, R145, R147, R148) -/

theorem KeyState.next_eq (value : Byte) (key : KeyState) : key.next value
    = if value = 0x4D#8 ∧ key ≠ .half then .half else if value = 0xB2#8 ∧ key = .half then .unlocked else .locked := by
  cases key <;> simp [KeyState.next]

theorem finishWrite_of_write {s : State} {w : WriteOperation} (write : s.store.write = some w) : finishWrite s
    = endWrite .done (onStore (fun x => { x with cells := Memory.write x.cells w.address.toNat w.data }) s) := by
  unfold finishWrite
  rw [write]

theorem timeOutWrite_of_write {s : State} {w : WriteOperation} (write : s.store.write = some w) :
    timeOutWrite s = endWrite .timeout s := by
  unfold timeOutWrite
  rw [write]

/-- A fall of the supply ends a write in progress (R147, R148). -/
theorem crossSupply_of_write {s : State} {w : WriteOperation} (write : s.store.write = some w) :
    crossSupply true s = endWrite .lowSupply (onStore (fun x => { x with supplyLow := true }) s) := by
  unfold crossSupply
  rw [write]
  rfl

theorem crossSupply_of_quiet {s : State} {below : Bool} (quiet : below = false ∨ s.store.write = none) :
    crossSupply below s = { s with store := { s.store with supplyLow := below } } := by
  unfold crossSupply
  rcases quiet with rfl | idle
  · rfl
  · rw [if_neg (by simp [idle])]
    rfl

theorem Memory.read_write {cells : List Host.Cell} (canonical : Memory.wf cells = true) (a b : Nat) (v : Byte) :
    Memory.read (Memory.write cells a v) b = if b = a then v else Memory.read cells b := by
  split
  case isTrue same => rw [same, Memory.read_write_same cells 0 a v canonical]
  case isFalse other => exact Memory.read_write_other cells a b v other

end Sys2Proof.Machine

section
open Sys2Proof Sys2Proof.Machine

/-- Settles O46: each check's refusal is one lemma about `storeWrite`, at the state in which the code stands in CMD. -/
theorem storeWriteIsCheckedInOrder : Obligations.StoreWriteIsCheckedInOrder := by
  intro s link answered open'
  have decided := exec_storeWrite_at_cmd link
  refine ⟨fun key => ?_, fun key running => ?_, fun key stopped address => ?_, fun key stopped address low => ?_,
    fun key stopped address supply busy => ?_, fun key stopped address supply idle => ?_⟩
  · rw [decided, storeWrite_of_locked (s := s.cmdTaken 7) key]
    rfl
  · rw [decided, storeWrite_of_not_stopped (s := s.cmdTaken 7) key running]
    rfl
  · rw [decided, storeWrite_of_protected (s := s.cmdTaken 7) key stopped address]
    rfl
  · rw [decided, storeWrite_of_lowSupply (s := s.cmdTaken 7) key stopped address low]
    rfl
  · rw [decided, storeWrite_of_busy (s := s.cmdTaken 7) key stopped address supply busy]
    rfl
  · rw [decided, storeWrite_of_accepted (s := s.cmdTaken 7) key stopped address supply idle]
    rfl

/-- Settles O47: RESTART by `restartRefusal`, and the reset of an accepted one by `resetBlocks_eq`. -/
theorem restartAndUnknownCodes : Obligations.RestartAndUnknownCodes := by
  refine ⟨fun s link => ⟨fun running => ?_, fun stopped busy => ?_, fun stopped idle outside => ?_⟩,
    fun s code link unknown => ?_⟩
  · exact exec_restart_of_refused link (restartRefusal_of_not_stopped running)
  · refine exec_restart_of_refused link ?_
    rw [restartRefusal_of_stopped stopped, if_pos (Option.isSome_iff_ne_none.mpr busy)]
  · have accepted : restartRefusal s = none := by
      rw [restartRefusal_of_stopped stopped, if_neg (by simp [idle])]
    refine ⟨resetBlocks .restart (onPort (LocalPort.takeByte 0x1D) s), ?_, ?_, rfl⟩
    · rw [exec_restart_of_accepted link accepted,
        beginReset_of_not_held .restart (s := onPort (LocalPort.takeByte 0x1D) s) outside]
    · have supply : (s.store.supplyLow || decide (ResetCause.restart = .power ∨ ResetCause.restart = .supply))
          = s.store.supplyLow := Bool.or_false _
      rw [resetBlocks_eq, onPort_store, supply]
      rfl
  · rw [exec_refusedUnknown, execRefusedUnknown, if_pos unknown, takeCommand_at_cmd link]
    rfl

/-- Settles O48: the key table by `KeyState.next_eq`, each end of a write operation as `endWrite`, and the byte that is
stored by `Memory.read_write`. -/
theorem keyWritesAndSupply : Obligations.KeyWritesAndSupply := by
  refine ⟨fun s value link => ?_, fun s w write => ⟨?_, ?_, ?_⟩, fun s => ⟨?_, fun idle => ?_⟩⟩
  · rw [exec_storeKey, execStoreKey, takeWrite, link, ← KeyState.next_eq]
    rfl
  · refine ⟨Memory.write s.store.cells w.address.toNat w.data, ?_, fun canonical a => ?_⟩
    · rw [exec_writeOperationDone, execWriteOperationDone, finishWrite_of_write write]
      rfl
    · exact Memory.read_write canonical _ _ _
  · rw [exec_writeTimeout, execWriteTimeout, timeOutWrite_of_write write]
    rfl
  · rw [exec_supplyLow, execSupplyLow, crossSupply_of_write write]
    rfl
  · rw [exec_supplyLow, execSupplyLow, crossSupply_of_quiet (.inl rfl)]
  · rw [exec_supplyLow, execSupplyLow, crossSupply_of_quiet (.inr idle)]

end
end

section
/-! PROOFS. The store's bytes after every step: no command but the end of a write operation changes one (R138, R149). -/

namespace Sys2Proof.Machine

theorem cells_of_store {s t : State} (same : t.store = s.store) : t.store.cells = s.store.cells :=
  congrArg ConfigStore.cells same

/-! ### The blocks that leave the store as it is -/

theorem removeRow_store (n : Station) (s : State) : (removeRow n s).store = s.store := by
  obtain ⟨m, d, chs, f, frame⟩ := removeRow_frame n s
  rw [frame]

theorem takeFrame_store (f : Frame) (s : State) : (takeFrame f s).store = s.store := by
  have duplicate : (takeDuplicate s).store = s.store := by
    obtain ⟨m, l, a, d, chs, f, frame⟩ := takeDuplicate_frame s
    rw [frame]
  unfold takeFrame
  cases f with
  | claim n q c =>
    dsimp only
    split
    · exact duplicate
    · obtain ⟨m, d, chs, f, frame⟩ := claimArrival_frame n q c s
      rw [frame]
  | leave n q code =>
    dsimp only
    split
    · exact duplicate
    · exact removeRow_store n s

theorem endReception_store (s : State) : (endReception s).store = s.store := by
  unfold endReception
  split
  · dsimp only
    split
    · rfl
    · split
      · rfl
      · exact takeFrame_store _ _
  · rfl

theorem closeRound_store (order : CloseOrder) (s : State) : (closeRound order s).store = s.store := by
  by_cases idle : s.line.idle = true
  · obtain ⟨m, a, d, chs, f, left⟩ := takeLeftExpiries_frame s
    obtain ⟨m', a', d', chs', f', counts⟩ := closeCounts_frame order (roundView s)
      (closeTable (onLine LineInterface.closeRound (takeLeftExpiries s)))
    rw [closeRound_eq order idle, counts, closeTable_eq, left]
    rfl
  · exact congrArg State.store (if_neg idle)

theorem takeLeaseExpiry_store (n : Station) (s : State) : (takeLeaseExpiry n s).store = s.store := by
  rcases takeLeaseExpiry_cases n s with same | ⟨taken, -⟩
  · rw [same]
  · rw [taken]
    rfl

theorem takeRetireExpiry_store (n : Station) (s : State) : (takeRetireExpiry n s).store = s.store := by
  rcases takeRetireExpiry_cases n s with same | ⟨taken, -⟩
  · rw [same]
  · rw [taken]
    rfl

theorem completeShare_store (s : State) : (completeShare s).store = s.store := by
  by_cases flight : s.share.flight.isSome = true
  · obtain ⟨l, a, frame⟩ := completeShare_frame flight
    obtain ⟨n, d, chs, f, parts⟩ := completed_frame s
    rw [frame, parts]
  · have none : s.share.flight = none := by simpa using flight
    unfold completeShare
    rw [none]

theorem expireLineWatch_store (s : State) : (expireLineWatch s).store = s.store := by
  unfold expireLineWatch
  split
  · obtain ⟨m, a, d, chs, f, frame⟩ :=
      takeLineWatch_frame (raiseLine .stuck (onLine (fun l => { l with lineWatch := 0 }) s))
    rw [frame]
    rfl
  · rfl

theorem expireDeferral_store (s : State) : (expireDeferral s).store = s.store := by
  by_cases first : s.line.idle = true ∧ s.line.deferralExpired = false
  · obtain ⟨idle, unexpired⟩ := first
    obtain ⟨l, a, frame⟩ := tryAttempt_frame s.noteExpiry
    rw [expireDeferral_eq idle unexpired, frame]
    rfl
  · exact congrArg State.store (if_neg first)

theorem collide_store (s : State) : (collide s).store = s.store := by
  unfold collide
  split
  · dsimp only
    split
    · rfl
    · rfl
  · rfl

theorem completeTransmit_store (s : State) : (completeTransmit s).store = s.store := by
  unfold completeTransmit
  split
  · obtain ⟨d, chs, f, frame⟩ := headRecheck_frame (onChannels (Four.map Channel.release)
      (setOwn _ (onLine LineInterface.complete s)))
    rw [frame]
    rfl
  · dsimp only
    split
    · rfl
    · rfl
  · rfl
  · rfl

theorem takeTripRequest_store (c : Chan) (s : State) : (takeTripRequest c s).store = s.store := by
  obtain ⟨v, d, chs, f, frame⟩ := takeTripRequest_frame c s
  rw [frame]
  rfl

theorem takeTripRequests_store (s : State) : (takeTripRequests s).store = s.store := by
  simp only [takeTripRequests, takeTripRequest_store]

theorem handTripRequest_store (c : Chan) (trip : TripTaking) (s : State) :
    (handTripRequest c trip s).store = s.store := by
  unfold handTripRequest
  split
  · rfl
  · exact takeTripRequest_store c s

theorem submit_store (s : State) : (submit s).2.store = s.store := by
  unfold submit
  split
  · rfl
  · obtain ⟨d, chs, f, frame⟩ := carrySubmit_frame (s.port.paramSelect.setWidth 2) s.port.paramTarget.toNat
      (s.port.paramPriority.setWidth 3) s.port.paramTag s
    rw [frame]

theorem withdraw_store (s : State) : (withdraw s).2.store = s.store := by
  unfold withdraw
  dsimp only
  split
  · rfl
  · split
    · rfl
    · obtain ⟨d, f, frame⟩ := endRequestFor_frame (s.port.paramSelect.setWidth 2) .withdrawn s
      rw [frame]

theorem clearTrip_store (s : State) : (clearTrip s).2.store = s.store := by
  unfold clearTrip
  dsimp only
  split
  · rfl
  · split
    · rfl
    · rfl

theorem forget_store (s : State) : (forget s).2.store = s.store := by
  unfold forget
  dsimp only
  split
  · rfl
  · split
    · exact removeRow_store _ s
    · rfl

theorem park_store (s : State) : (park s).2.store = s.store := by
  obtain ⟨m, a, requests, results, chs, f, frame⟩ := park_frame s
  rw [frame]

theorem captureByte_store (s : State) : (captureByte s).store = s.store := by
  unfold captureByte
  split
  · rfl
  all_goals rfl

theorem selectLow_store (s : State) : (selectLow s).store = s.store := by
  unfold selectLow
  split
  · split
    · rfl
    · rfl
  all_goals rfl

theorem takeAddress_store (value : Byte) (s : State) : (takeAddress value s).store = s.store := by
  unfold takeAddress
  split
  · rfl
  all_goals rfl

theorem passBitTime_store (s : State) : (passBitTime s).store = s.store := by
  unfold passBitTime
  split
  · rfl
  · rfl

/-! ### What moves in the store but its bytes (R139, R144 to R149) -/

theorem rejoin_cells (s : State) : (rejoin s).2.store.cells = s.store.cells := by
  by_cases parked : s.member.state = .parked
  · rw [rejoin_of_parked parked]
    rfl
  · rw [rejoin_of_not_parked parked]

theorem storeWrite_cells (s : State) : (storeWrite s).2.store.cells = s.store.cells := by
  unfold storeWrite
  split_ifs
  all_goals rfl

theorem timeOutWrite_cells (s : State) : (timeOutWrite s).store.cells = s.store.cells := by
  unfold timeOutWrite
  split
  · rfl
  · rfl

theorem crossSupply_cells (below : Bool) (s : State) : (crossSupply below s).store.cells = s.store.cells := by
  unfold crossSupply
  dsimp only
  split
  · rfl
  · rfl

theorem beginReset_cells (cause : ResetCause) (s : State) : (beginReset cause s).store.cells = s.store.cells := by
  unfold beginReset
  split
  · rfl
  all_goals rfl

theorem endReset_cells (straps : Station) (s : State) : (endReset straps s).store.cells = s.store.cells := by
  unfold endReset
  split
  · rfl
  all_goals rfl

theorem endStartUp_cells (s : State) : (endStartUp s).store.cells = s.store.cells := by
  unfold endStartUp
  split
  · split
    · rfl
    · rfl
  all_goals rfl

/-! ### Bytes of the local port -/

theorem takeWrite_cells {effect : BitVec 7 → State → State}
    (kept : ∀ a t, (effect a t).store.cells = t.store.cells) (ok : BitVec 7 → Bool) (s : State) :
    (takeWrite ok effect s).store.cells = s.store.cells := by
  rcases takeWrite_cases ok effect s with same | ⟨a, -, -, taken⟩
  · rw [same]
  · rw [taken, kept]
    rfl

theorem takeCommand_cells {decision : State → CmdResult × State}
    (kept : ∀ t, (decision t).2.store.cells = t.store.cells) (code : Byte) (s : State) :
    (takeCommand code decision s).store.cells = s.store.cells := by
  rcases takeCommand_cases code decision s with same | decided
  · rw [same]
  · rw [decided]
    exact kept (s.cmdTaken code)

/-! ### Every command -/

/-- No command but the end of a write operation that is done changes a byte of the store (R138). -/
theorem exec_cells {i : Instr} (other : i ≠ .writeOperationDone) (s : State) :
    ∃ t, exec i s = .next t ∧ t.store.cells = s.store.cells := by
  cases i with
  | writeOperationDone => exact absurd rfl other
  | powerOn => exact ⟨_, rfl, beginReset_cells .power s⟩
  | resetPinAsserted => exact ⟨_, rfl, beginReset_cells .pin s⟩
  | supplyReset => exact ⟨_, rfl, beginReset_cells .supply s⟩
  | restart =>
    refine ⟨_, rfl, ?_⟩
    split
    · exact takeCommand_cells (fun _ => rfl) 8 s
    · exact takeWrite_cells (fun _ => beginReset_cells .restart) _ s
  | resetEnd straps => exact ⟨_, rfl, endReset_cells straps s⟩
  | startUpEnd => exact ⟨_, rfl, endStartUp_cells s⟩
  | receiverReady | synchronisingTransition | startBitConfirmed | characterSlotEnd => exact ⟨_, rfl, rfl⟩
  | receptionEnd => exact ⟨_, rfl, cells_of_store (endReception_store s)⟩
  | roundClose order => exact ⟨_, rfl, cells_of_store (closeRound_store order s)⟩
  | leaseExpiry n => exact ⟨_, rfl, cells_of_store (takeLeaseExpiry_store n s)⟩
  | retireExpiry n => exact ⟨_, rfl, cells_of_store (takeRetireExpiry_store n s)⟩
  | listenCountExpiry =>
    obtain ⟨m, d, chs, f, frame⟩ := takeListenExpiry_frame s
    exact ⟨_, congrArg Host.Outcome.next frame, rfl⟩
  | joinCountExpiry =>
    obtain ⟨m, d, chs, f, frame⟩ := takeJoinExpiry_frame s
    exact ⟨_, congrArg Host.Outcome.next frame, rfl⟩
  | isolationCountExpiry =>
    obtain ⟨m, a, d, chs, f, frame⟩ := takeIsolationExpiry_frame s
    exact ⟨_, congrArg Host.Outcome.next frame, rfl⟩
  | askLimitExpiry =>
    obtain ⟨d, f, frame⟩ := expireHead_frame s
    exact ⟨_, congrArg Host.Outcome.next frame, rfl⟩
  | shareComputationCompletion => exact ⟨_, rfl, cells_of_store (completeShare_store s)⟩
  | lineWatchExpiry => exact ⟨_, rfl, cells_of_store (expireLineWatch_store s)⟩
  | deferralExpiry => exact ⟨_, rfl, cells_of_store (expireDeferral_store s)⟩
  | collision => exact ⟨_, rfl, cells_of_store (collide_store s)⟩
  | transmitComplete => exact ⟨_, rfl, cells_of_store (completeTransmit_store s)⟩
  | periodStart =>
    refine ⟨_, rfl, ?_⟩
    split
    · exact cells_of_store (takeTripRequests_store s)
    · rfl
  | onCountEnd c =>
    refine ⟨_, rfl, ?_⟩
    split
    · rfl
    · rfl
  | conversionPass =>
    refine ⟨_, rfl, ?_⟩
    split
    · exact cells_of_store (takeTripRequests_store s)
    · rfl
  | conversionComplete raw trip =>
    refine ⟨_, rfl, ?_⟩
    split
    · rfl
    · rfl
    · exact cells_of_store ((handTripRequest_store _ trip _).trans (takeTripRequests_store s))
  | tripRequest c => exact ⟨_, rfl, cells_of_store (takeTripRequest_store c s)⟩
  | submit => exact ⟨_, rfl, takeCommand_cells (fun t => cells_of_store (submit_store t)) 1 s⟩
  | withdraw => exact ⟨_, rfl, takeCommand_cells (fun t => cells_of_store (withdraw_store t)) 2 s⟩
  | clear => exact ⟨_, rfl, takeCommand_cells (fun t => cells_of_store (clearTrip_store t)) 3 s⟩
  | forget => exact ⟨_, rfl, takeCommand_cells (fun t => cells_of_store (forget_store t)) 4 s⟩
  | park => exact ⟨_, rfl, takeCommand_cells (fun t => cells_of_store (park_store t)) 5 s⟩
  | rejoin => exact ⟨_, rfl, takeCommand_cells rejoin_cells 6 s⟩
  | storeWrite => exact ⟨_, rfl, takeCommand_cells storeWrite_cells 7 s⟩
  | refusedUnknown code =>
    refine ⟨_, rfl, ?_⟩
    split
    · exact takeCommand_cells (fun _ => rfl) code s
    · rfl
  | writeTimeout => exact ⟨_, rfl, timeOutWrite_cells s⟩
  | supplyLow below => exact ⟨_, rfl, crossSupply_cells below s⟩
  | storeKey | rawEvents | en | registerWrite =>
    refine ⟨_, rfl, takeWrite_cells (fun _ _ => ?_) _ s⟩
    rfl
  | readLatch => exact ⟨_, rfl, cells_of_store (captureByte_store s)⟩
  | transactionStart => exact ⟨_, rfl, cells_of_store (selectLow_store s)⟩
  | addressByte value => exact ⟨_, rfl, cells_of_store (takeAddress_store value s)⟩
  | transactionEnd => exact ⟨_, rfl, rfl⟩

/-- A write operation that is done keeps the canonical form (R138, log 8). -/
theorem finishWrite_wf {s : State} (canonical : Memory.wf s.store.cells = true) :
    Memory.wf (finishWrite s).store.cells = true := by
  unfold finishWrite
  split
  · exact canonical
  · exact Memory.wf_write _ _ _ canonical

end Sys2Proof.Machine

section
open Sys2Proof Sys2Proof.Machine

/-- Settles O59: every command but WRITE_OPERATION_DONE keeps the bytes by `exec_cells`, and that one the canonical form
by `finishWrite_wf`. -/
theorem storeChangesOnlyByAFinishedWrite : Obligations.StoreChangesOnlyByAFinishedWrite := by
  intro s t canonical next
  have same : s.pending.head? ≠ some .writeOperationDone → t.store.cells = s.store.cells := by
    intro other
    have result : ∃ u, step s = .next u ∧ u.store.cells = s.store.cells := by
      unfold step
      cases queue : s.pending with
      | nil => exact ⟨_, rfl, cells_of_store (passBitTime_store s)⟩
      | cons i rest => exact exec_cells (fun done => other (by rw [queue, done]; rfl)) (s.withPending rest)
    obtain ⟨u, stepped, kept⟩ := result
    obtain rfl := Host.Outcome.next.inj (stepped.symm.trans next)
    exact kept
  refine ⟨?_, same⟩
  by_cases done : s.pending.head? = some .writeOperationDone
  · obtain ⟨rest, queue⟩ := List.head?_eq_some_iff.mp done
    have stepped : step s = .next (finishWrite (s.withPending rest)) := by
      unfold step
      rw [queue]
      rfl
    obtain rfl := Host.Outcome.next.inj (stepped.symm.trans next)
    exact finishWrite_wf (s := s.withPending rest) canonical
  · rw [same done]
    exact canonical

end
end

section
/-! PROOFS. The bytes of the local port: transactions, the event bytes and the stored bytes (R151 to R160). -/

namespace Sys2Proof.Machine

/-- A data byte of a write transaction has its effect at an address that passes the test (R151 to R153). -/
theorem takeWrite_of_writing {s : State} {a : BitVec 7} (link : s.port.link = .writing a) {ok : BitVec 7 → Bool}
    (passes : ok a = true) (effect : BitVec 7 → State → State) :
    takeWrite ok effect s = effect a (onPort (LocalPort.takeByte a) s) := by
  simp [takeWrite, link, passes]

/-! ### The event flags and their enables, bit by bit (R158 to R160) -/

/-- A byte of one half of RAW_EVENTS or EN stands at the bits of its half: STORE is bit 0 of the high one (R166). -/
theorem getLsbD_ofHalf (high : Bool) (value : Byte) {i : Nat} (bound : i < 9) :
    (if high then (value.setWidth 9) <<< 8 else value.setWidth 9).getLsbD i
      = if i < 8 then !high && value.getLsbD i else high && value.getLsbD 0 := by
  by_cases low : i < 8
  · cases high <;> simp [low, bound]
  · obtain rfl : i = 8 := by omega
    cases high <;> simp

/-- A 1 written to a half of RAW_EVENTS clears the flag at its place (R158). -/
theorem getLsbD_clearFlags (high : Bool) (value : Byte) (f : BitVec 9) {i : Nat} (bound : i < 9) :
    (clearFlags high value f).getLsbD i
      = (f.getLsbD i && !(if i < 8 then !high && value.getLsbD i else high && value.getLsbD 0)) := by
  rw [clearFlags, BitVec.getLsbD_and, BitVec.getLsbD_not, getLsbD_ofHalf high value bound, decide_eq_true bound,
    Bool.true_and]

/-- The mask of the half of EN that a byte written to the other half keeps. -/
theorem getLsbD_keptHalf : ∀ i, i < 9 → ∀ {high : Bool},
    (if high then 0x0FF#9 else 0x100#9).getLsbD i = if i < 8 then high else !high := by decide

/-- A byte written to a half of EN gives the enables of that half and leaves the others (R159). -/
theorem getLsbD_writeEnables (high : Bool) (value : Byte) (e : BitVec 9) {i : Nat} (bound : i < 9) :
    (writeEnables high value e).getLsbD i
      = if i < 8 then (if high then e.getLsbD i else value.getLsbD i)
        else if high then value.getLsbD 0 else e.getLsbD 8 := by
  have parts : writeEnables high value e = (e &&& if high then 0x0FF#9 else 0x100#9)
      ||| if high then (value.setWidth 9) <<< 8 else value.setWidth 9 := by
    cases high <;> rfl
  rw [parts, BitVec.getLsbD_or, BitVec.getLsbD_and, getLsbD_keptHalf i bound, getLsbD_ofHalf high value bound]
  by_cases low : i < 8
  · cases high <;> simp [low]
  · obtain rfl : i = 8 := by omega
    cases high <;> simp

/-- The interrupt output is asserted while some event has its flag and its enable set (R159, R160). -/
theorem interruptAsserted_iff (s : State) :
    interruptAsserted s = true
      ↔ ∃ i, i < 9 ∧ s.port.flags.getLsbD i = true ∧ s.port.enables.getLsbD i = true := by
  rw [interruptAsserted, decide_eq_true_eq, eventsShown]
  constructor
  · intro shown
    by_contra unset
    push Not at unset
    refine shown (BitVec.eq_of_getLsbD_eq fun i bound => ?_)
    rw [BitVec.getLsbD_and]
    cases flag : s.port.flags.getLsbD i with
    | false => simp
    | true => simp [unset i bound flag]
  · rintro ⟨i, -, flag, enable⟩ zero
    have bit := congrArg (fun v => BitVec.getLsbD v i) zero
    simp [BitVec.getLsbD_and, flag, enable] at bit

/-! ### The stored bytes (R155 to R157, R166, R167) -/

/-- A byte is stored in the one field of its address. -/
theorem LocalPort.storeValue_eq (a : BitVec 7) (value : Byte) (p : LocalPort) :
    p.storeValue a value = { p with
      paramSelect := if a = 0x18 then value else p.paramSelect
      paramTarget := if a = 0x19 then p.paramTarget.extractLsb' 8 8 ++ value
        else if a = 0x1A then value ++ p.paramTarget.extractLsb' 0 8 else p.paramTarget
      paramPriority := if a = 0x1B then value else p.paramPriority
      paramTag := if a = 0x1C then value else p.paramTag
      storeAddr := if a = 0x23 then value else p.storeAddr
      writeData := if a = 0x24 then value else p.writeData
      rowSelect := if a = 0x25 then value.extractLsb' 0 4 else p.rowSelect
      channelSelect := if a = 0x26 then value.extractLsb' 0 2 else p.channelSelect } := by
  by_cases stored : a ∈ ([0x18, 0x19, 0x1A, 0x1B, 0x1C, 0x23, 0x24, 0x25, 0x26] : List (BitVec 7))
  · fin_cases stored
    all_goals rfl
  · simp only [List.mem_cons, List.not_mem_nil, or_false, not_or, BitVec.ofNat_eq_ofNat] at stored
    simp [storeValue, stored]

end Sys2Proof.Machine

section
open Sys2Proof Sys2Proof.Machine

/-- Settles O53: each transaction row in the link state that it needs; the top bit of the address byte is its bit 7. -/
theorem transactionsBeginAndEndWithSelect : Obligations.TransactionsBeginAndEndWithSelect := by
  refine ⟨fun s released running => ?_, fun s released held => ?_, fun s value awaiting => ?_, fun s => rfl⟩
  · simp [exec_transactionStart, execTransactionStart, selectLow, released, running, onPort]
  · simp [exec_transactionStart, execTransactionStart, selectLow, released, held, onPort]
  · have direction : value.msb = value.getLsbD 7 := BitVec.msb_eq_getLsbD_last value
    have address : value.setWidth 7 = value.extractLsb' 0 7 := rfl
    simp [exec_addressByte, execAddressByte, takeAddress, awaiting, onPort, direction, address]

/-- Settles O49: the flags by `getLsbD_clearFlags`, the enables by `getLsbD_writeEnables`, and the interrupt output by
`interruptAsserted_iff`. -/
theorem eventBytesActOnTheirHalf : Obligations.EventBytesActOnTheirHalf := by
  refine fun s value a link => ⟨fun half => ?_, fun half => ?_⟩
  · refine ⟨_, congrArg Host.Outcome.next (takeWrite_of_writing link (decide_eq_true half) _), rfl, fun i bound => ?_,
      interruptAsserted_iff _⟩
    refine (getLsbD_clearFlags (decide (a = 0x13)) value s.port.flags bound).trans ?_
    rcases half with rfl | rfl <;> rfl
  · refine ⟨_, congrArg Host.Outcome.next (takeWrite_of_writing link (decide_eq_true half) _), rfl, fun i bound => ?_,
      interruptAsserted_iff _⟩
    refine (getLsbD_writeEnables (decide (a = 0x15)) value s.port.enables bound).trans ?_
    rcases half with rfl | rfl <;> rfl

/-- Settles O50: the byte passes the gate of REGISTER_WRITE and is stored by `LocalPort.storeValue_eq`. -/
theorem registerBytesAreStoredAtTheirAddress : Obligations.RegisterBytesAreStoredAtTheirAddress := by
  intro s value a link others
  have free : hasOwnRow a = false := by
    refine decide_eq_false ?_
    simp only [not_or]
    exact others
  have passes : (!hasOwnRow a) = true := by rw [free, Bool.not_false]
  rw [exec_registerWrite, execRegisterWrite, takeWrite_of_writing (ok := fun a => !hasOwnRow a) link passes, onPort,
    LocalPort.storeValue_eq]
  rfl

end
end

section
/-! PROOFS. The register window: each address shows the one field that stands there, and the read latch (R152, R153,
Tables 11-7 to 11-10). -/

namespace Sys2Proof.Machine

/-! ### Where the fields of the window stand -/

/-- The addresses at which a field presents its bytes. -/
def WindowField.addresses : WindowField → List Nat
  | .one k _ => [k]
  | .two k _ => [k, k + 1]

/-- A field presents a byte exactly at its own addresses. -/
theorem WindowField.mem_addresses {f : WindowField} {a : Nat} {b : Byte} (shown : f.byteAt a = some b) :
    a ∈ f.addresses := by
  cases f with
  | one k v =>
    have here : a = k ∧ byte v = b := by simpa [byteAt] using shown
    simp [addresses, here]
  | two k v =>
    by_cases low : a = k
    · simp [addresses, low]
    · have high : a = k + 1 := by
        by_contra other
        simp [byteAt, low, other] at shown
      simp [addresses, high]

/-- The addresses of the window's fields, as they stand after reset. -/
def windowAddresses : List (List Nat) := (windowFields State.reset).map WindowField.addresses

/-- Every state has its fields at the same addresses. -/
theorem map_addresses_windowFields (s : State) : (windowFields s).map WindowField.addresses = windowAddresses := by
  have own : (ownFields s).map WindowField.addresses = (ownFields State.reset).map WindowField.addresses := by
    unfold ownFields
    cases s.share.own <;> rfl
  have request : (requestFields s.port.channelSelect s).map WindowField.addresses
      = (requestFields State.reset.port.channelSelect State.reset).map WindowField.addresses := by
    unfold requestFields
    cases requestFor s.port.channelSelect s.demand.requests <;> rfl
  simp only [windowAddresses, windowFields, channelFields, List.map_append, own, request]
  rfl

/-- No two fields share an address. -/
theorem windowAddresses_nodup : windowAddresses.flatten.Nodup := by decide +kernel

/-- Every address fits the seven bits of an address byte. -/
theorem windowAddresses_lt : ∀ as ∈ windowAddresses, ∀ a ∈ as, a < 128 := by decide +kernel

theorem addresses_mem_of_mem {s : State} {f : WindowField} (mem : f ∈ windowFields s) :
    f.addresses ∈ windowAddresses :=
  map_addresses_windowFields s ▸ List.mem_map_of_mem mem

/-- Two fields that present a byte at one address are the same field. -/
theorem eq_of_shared_address {s : State} {f g : WindowField} (hf : f ∈ windowFields s) (hg : g ∈ windowFields s)
    {a : Nat} (inF : a ∈ f.addresses) (inG : a ∈ g.addresses) : f = g := by
  have apart : (windowFields s).Pairwise fun f g => List.Disjoint f.addresses g.addresses := by
    rw [← List.pairwise_map, map_addresses_windowFields]
    exact (List.nodup_flatten.mp windowAddresses_nodup).2
  have symm : Std.Symm fun f g : WindowField => List.Disjoint f.addresses g.addresses := ⟨fun _ _ h => h.symm⟩
  by_contra other
  exact apart.forall hf hg other inF inG

/-! ### What an address presents -/

/-- An address presents the byte of the field that stands there. -/
theorem windowByte_of_mem {s : State} {f : WindowField} (mem : f ∈ windowFields s) {a : BitVec 7} {b : Byte}
    (shown : f.byteAt a.toNat = some b) : windowByte s a = b := by
  unfold windowByte
  cases found : (windowFields s).findSome? (WindowField.byteAt a.toNat) with
  | none =>
    have missing := List.findSome?_eq_none_iff.mp found f mem
    rw [shown] at missing
    cases missing
  | some c =>
    obtain ⟨g, hg, shownG⟩ := List.exists_of_findSome?_eq_some found
    obtain rfl := eq_of_shared_address mem hg (WindowField.mem_addresses shown) (WindowField.mem_addresses shownG)
    exact Option.some.inj (shownG.symm.trans shown)

/-- An address presents what a part of the window shows there. -/
theorem windowByte_of_part {s : State} {part : List WindowField} (sub : part ⊆ windowFields s) {a : BitVec 7} {b : Byte}
    (shown : part.findSome? (WindowField.byteAt a.toNat) = some b) : windowByte s a = b := by
  obtain ⟨f, mem, here⟩ := List.exists_of_findSome?_eq_some shown
  exact windowByte_of_mem (sub mem) here

/-- An address at which no field stands presents 0 (R152). -/
theorem windowByte_of_unassigned {a : BitVec 7} (free : ∀ as ∈ windowAddresses, a.toNat ∉ as) (s : State) :
    windowByte s a = 0 := by
  have absent : (windowFields s).findSome? (WindowField.byteAt a.toNat) = none := by
    refine List.findSome?_eq_none_iff.mpr fun f mem => ?_
    by_contra shown
    obtain ⟨b, here⟩ := Option.ne_none_iff_exists'.mp shown
    exact free _ (addresses_mem_of_mem mem) (WindowField.mem_addresses here)
  rw [windowByte, absent, Option.getD_none]

/-- A two-byte value is its low byte and 256 times its high byte. -/
theorem lowByte_add_highByte (v : Half) : (lowByte v).toNat + 256 * (highByte v).toNat = v.toNat := by
  have bound := v.isLt
  simp only [lowByte, highByte, BitVec.extractLsb'_toNat, Nat.shiftRight_eq_div_pow]
  omega

/-- A field stands in the window with its value. -/
def WindowField.Shown (s : State) : WindowField → Prop
  | .one k v => windowByte s (BitVec.ofNat 7 k) = byte v
  | .two k v => windowWord s (BitVec.ofNat 7 k) = v.toNat

/-- The two bytes of a two-byte field, at its address and at the next (R153, R166). -/
theorem windowByte_of_two {s : State} {k : Nat} {v : Half} (mem : .two k v ∈ windowFields s) :
    windowByte s (BitVec.ofNat 7 k) = lowByte v ∧ windowByte s (BitVec.ofNat 7 (k + 1)) = highByte v := by
  have high : k + 1 < 128 := windowAddresses_lt _ (addresses_mem_of_mem mem) (k + 1) (by simp [WindowField.addresses])
  constructor
  · refine windowByte_of_mem mem ?_
    simp [WindowField.byteAt, Nat.mod_eq_of_lt (Nat.lt_of_succ_lt high)]
  · refine windowByte_of_mem mem ?_
    simp [WindowField.byteAt, Nat.mod_eq_of_lt high]

/-- Every field of the window shows its value at its address. -/
theorem shown_of_mem {s : State} {f : WindowField} (mem : f ∈ windowFields s) : f.Shown s := by
  cases f with
  | one k v =>
    have bound : k < 128 := windowAddresses_lt _ (addresses_mem_of_mem mem) k (by simp [WindowField.addresses])
    refine windowByte_of_mem mem ?_
    simp [WindowField.byteAt, Nat.mod_eq_of_lt bound]
  | two k v =>
    obtain ⟨low, high⟩ := windowByte_of_two mem
    rw [BitVec.ofNat_add] at high
    calc windowWord s (BitVec.ofNat 7 k) = (lowByte v).toNat + 256 * (highByte v).toNat := by
          rw [← low, ← high]
          rfl
      _ = v.toNat := lowByte_add_highByte v

/-! ### The read latch (R153) -/

/-- The two-byte fields of the window stand at the addresses of Tables 11-7, 11-9 and 11-10. -/
theorem mem_twoByteAddresses_iff : ∀ a : BitVec 7,
    a ∈ twoByteAddresses ↔ [a.toNat, a.toNat + 1] ∈ windowAddresses := by decide +kernel

theorem latchAt_eq_some {f : WindowField} {a : Nat} {l : Latched} (taken : f.latchAt a = some l) :
    ∃ v, f = .two a v ∧ l = { address := BitVec.ofNat 7 (a + 1), value := highByte v } := by
  cases f with
  | one k v => cases taken
  | two k v =>
    by_cases here : a = k
    · subst here
      exact ⟨v, rfl, by simpa [WindowField.latchAt] using taken.symm⟩
    · simp [WindowField.latchAt, here] at taken

/-- The field at the addresses of a two-byte value. -/
theorem exists_two_of_mem {a : Nat} (mem : [a, a + 1] ∈ windowAddresses) (s : State) :
    ∃ v, .two a v ∈ windowFields s := by
  rw [← map_addresses_windowFields s] at mem
  obtain ⟨f, hf, same⟩ := List.mem_map.mp mem
  cases f with
  | one k v => simp [WindowField.addresses] at same
  | two k v =>
    obtain ⟨rfl, -⟩ : k = a ∧ k = a := by simpa [WindowField.addresses] using same
    exact ⟨v, hf⟩

/-- The read latch takes the high byte exactly at the low address of a two-byte value. -/
theorem windowLatch_eq (s : State) (a : BitVec 7) :
    windowLatch s a
      = if a ∈ twoByteAddresses then some { address := a + 1, value := windowByte s (a + 1) } else none := by
  have next : BitVec.ofNat 7 (a.toNat + 1) = a + 1 := by simp [BitVec.ofNat_add]
  unfold windowLatch
  cases found : (windowFields s).findSome? (WindowField.latchAt a.toNat) with
  | none =>
    rw [if_neg fun listed => ?_]
    obtain ⟨v, mem⟩ := exists_two_of_mem ((mem_twoByteAddresses_iff a).mp listed) s
    have missing := List.findSome?_eq_none_iff.mp found _ mem
    simp [WindowField.latchAt] at missing
  | some l =>
    obtain ⟨f, mem, taken⟩ := List.exists_of_findSome?_eq_some found
    obtain ⟨v, rfl, rfl⟩ := latchAt_eq_some taken
    have high := (windowByte_of_two mem).2
    rw [if_pos ((mem_twoByteAddresses_iff a).mpr (addresses_mem_of_mem mem)), ← high, next]

/-- A read at the latch's own address captures the latched byte, and any other what the window presents (R153). -/
theorem captured_of_latched {s : State} {a : BitVec 7} {l : Latched} (latch : s.port.latch = some l)
    (here : l.address = a) : captured s a = l.value := by
  simp [captured, latch, here]

theorem captured_of_not_latched {s : State} {a : BitVec 7}
    (other : s.port.latch = none ∨ ∃ l, s.port.latch = some l ∧ l.address ≠ a) : captured s a = windowByte s a := by
  rcases other with empty | ⟨l, latch, elsewhere⟩
  · simp [captured, empty]
  · simp [captured, latch, elsewhere]

/-! ### The values of the fields (Tables 11-7 to 11-10) -/

/-- A number that fits a byte is what the byte shows. -/
theorem toNat_of_one {s : State} {a : BitVec 7} {v : Nat} (shown : windowByte s a = byte v) (fits : v < 256) :
    (windowByte s a).toNat = v := by
  rw [shown, byte, BitVec.toNat_ofNat, Nat.mod_eq_of_lt fits]

/-- A number that fits two bytes is what they show. -/
theorem word_of_two {s : State} {a : BitVec 7} {v : Nat} (shown : windowWord s a = (half v).toNat) (fits : v < 65536) :
    windowWord s a = v := by
  rw [shown, half, BitVec.toNat_ofNat, Nat.mod_eq_of_lt fits]

theorem bitAt_eq (position : Nat) (mark : Bool) : bitAt position mark = 2 ^ position * (if mark then 1 else 0) := by
  cases mark <;> simp [bitAt]

theorem byte_ofToNat (b : Byte) : byte b.toNat = b := BitVec.ofNat_toNat 8 b

/-- Two nibbles side by side. -/
theorem byte_nibbles : ∀ low high : Station, byte (low.toNat + 16 * high.toNat) = high ++ low := by decide +kernel

/-- The low nibble of a byte that holds two numbers. -/
theorem lowNibble_byte (low high : Nat) : (byte (low + 16 * high)).extractLsb' 0 4 = BitVec.ofNat 4 low := by
  apply BitVec.eq_of_toNat_eq
  simp only [byte, BitVec.extractLsb'_toNat, BitVec.toNat_ofNat, Nat.shiftRight_zero]
  omega

theorem lowNibble_of_one {s : State} {a : BitVec 7} {low high : Nat} (shown : windowByte s a = byte (low + 16 * high)) :
    (windowByte s a).extractLsb' 0 4 = BitVec.ofNat 4 low := by
  rw [shown, lowNibble_byte]

theorem flagWord_toNat (f : BitVec 9) : (flagWord f).toNat = f.toNat :=
  BitVec.toNat_setWidth_of_le (by decide)

/-- The flag word has each flag at its event's bit (section 11.5). -/
theorem toNat_eq_bits : ∀ f : BitVec 9, f.toNat
    = (if f.getLsbD 0 then 1 else 0) + 2 * (if f.getLsbD 1 then 1 else 0) + 4 * (if f.getLsbD 2 then 1 else 0)
      + 8 * (if f.getLsbD 3 then 1 else 0) + 16 * (if f.getLsbD 4 then 1 else 0) + 32 * (if f.getLsbD 5 then 1 else 0)
      + 64 * (if f.getLsbD 6 then 1 else 0) + 128 * (if f.getLsbD 7 then 1 else 0)
      + 256 * (if f.getLsbD 8 then 1 else 0) := by decide +kernel

/-- Every group of fields shows its values. -/
theorem groups_shown (s : State) :
    (∀ f ∈ identityFields s, f.Shown s) ∧ (∀ f ∈ stationFields s, f.Shown s) ∧ (∀ f ∈ commandFields s, f.Shown s)
      ∧ (∀ f ∈ storeFields s, f.Shown s) ∧ (∀ f ∈ resultFields s, f.Shown s) ∧ (∀ f ∈ askFields s, f.Shown s)
      ∧ (∀ f ∈ ownFields s, f.Shown s) ∧ (∀ f ∈ rowFields s, f.Shown s) ∧ (∀ f ∈ channelFields s, f.Shown s) := by
  have all : ∀ f ∈ windowFields s, f.Shown s := fun f => shown_of_mem
  simpa only [windowFields, List.forall_mem_append, and_assoc] using all

theorem ownFields_subset (s : State) : ownFields s ⊆ windowFields s := by
  intro f mem
  simp [windowFields, mem]

theorem rowFields_subset (s : State) : rowFields s ⊆ windowFields s := by
  intro f mem
  simp [windowFields, mem]

theorem requestFields_subset (s : State) : requestFields s.port.channelSelect s ⊆ windowFields s := by
  intro f mem
  simp [windowFields, channelFields, mem]

/-! ### What is not there shows 0 (R156, R166, R167) -/

/-- Without an own record its addresses present 0. -/
theorem windowByte_of_noOwn {s : State} (own : s.share.own = none) :
    ∀ a : BitVec 7, 0x42 ≤ a.toNat → a.toNat ≤ 0x4F → windowByte s a = 0 := by
  have fields : ownFields s = [.one 0x42 0, .one 0x43 0, .two 0x44 0, .two 0x46 0, .two 0x48 0, .two 0x4A 0,
      .one 0x4C 0, .one 0x4D 0, .two 0x4E 0] := by simp [ownFields, own]
  have zeros : ∀ a : BitVec 7, 0x42 ≤ a.toNat → a.toNat ≤ 0x4F →
      (ownFields s).findSome? (WindowField.byteAt a.toNat) = some 0 := by
    rw [fields]
    decide +kernel
  exact fun a low high => windowByte_of_part (ownFields_subset s) (zeros a low high)

/-- A cleared row presents 0 everywhere. -/
theorem windowByte_of_cleared {s : State} (cleared : Sixteen.get s.peers s.port.rowSelect = Row.cleared) :
    ∀ a : BitVec 7, 0x50 ≤ a.toNat → a.toNat ≤ 0x5F → windowByte s a = 0 := by
  have fields : rowFields s = [.one 0x50 0, .one 0x51 0, .one 0x52 0, .one 0x53 0, .one 0x54 0, .one 0x55 0,
      .two 0x56 0, .two 0x58 0, .two 0x5A 0, .two 0x5C 0, .two 0x5E 0] := by
    unfold rowFields
    rw [cleared]
    rfl
  have zeros : ∀ a : BitVec 7, 0x50 ≤ a.toNat → a.toNat ≤ 0x5F →
      (rowFields s).findSome? (WindowField.byteAt a.toNat) = some 0 := by
    rw [fields]
    decide +kernel
  exact fun a low high => windowByte_of_part (rowFields_subset s) (zeros a low high)

/-- A channel without a request presents 0 at the request's addresses. -/
theorem windowByte_of_noRequest {s : State} (unqueued : ∀ q ∈ s.demand.requests, q.channel ≠ s.port.channelSelect) :
    ∀ a : BitVec 7, (a = 0x63 ∨ 0x6A ≤ a.toNat ∧ a.toNat ≤ 0x6D) → windowByte s a = 0 := by
  have fields : requestFields s.port.channelSelect s = [.one 0x63 0, .two 0x6A 0, .one 0x6C 0, .one 0x6D 0] := by
    simp [requestFields, requestFor_eq_none_iff.mpr unqueued]
  have zeros : ∀ a : BitVec 7, (a = 0x63 ∨ 0x6A ≤ a.toNat ∧ a.toNat ≤ 0x6D) →
      (requestFields s.port.channelSelect s).findSome? (WindowField.byteAt a.toNat) = some 0 := by
    rw [fields]
    decide +kernel
  exact fun a here => windowByte_of_part (requestFields_subset s) (zeros a here)

/-- No field stands at the unassigned addresses of Table 11-7. -/
theorem unassigned_free : ∀ a : BitVec 7, (a = 0x1F ∨ a = 0x27 ∨ a = 0x39 ∨ 0x75 ≤ a.toNat) →
    ∀ as ∈ windowAddresses, a.toNat ∉ as := by decide +kernel

/-! ### The request of a channel, by its place in the queue (R100, R167) -/

section
variable {c : Chan} {before after : List Request} {r : Request}

theorem requestFor_of_first (here : r.channel = c) (first : ∀ q ∈ before, q.channel ≠ c) :
    requestFor c (before ++ r :: after) = some r := by
  have ahead : requestFor c before = none := requestFor_eq_none_iff.mpr first
  rw [requestFor] at ahead
  simp [requestFor, List.find?_append, ahead, here]

theorem placeInQueue_of_first (here : r.channel = c) (first : ∀ q ∈ before, q.channel ≠ c) :
    placeInQueue c (before ++ r :: after) = before.length := by
  have ahead : before.findIdx (fun q => decide (q.channel = c)) = before.length := by
    simpa [List.findIdx_eq_length] using first
  simp [placeInQueue, List.findIdx_append, ahead, List.findIdx_cons, here]

end

end Sys2Proof.Machine

section
open Sys2Proof Sys2Proof.Machine

/-- Settles O51: the byte as `captured`, and the latch by `windowLatch_eq`. -/
theorem readCapturesAByteAndMovesTheLatch : Obligations.ReadCapturesAByteAndMovesTheLatch := by
  intro s a link
  refine ⟨_, rfl, ?_, fun l latch here => ?_, fun other => ?_⟩
  · simp [captureByte, link, windowLatch_eq]
  · simp [captureByte, link, captured_of_latched latch here]
  · simp [captureByte, link, captured_of_not_latched other]

/-- Settles O52: each group of fields by `groups_shown`, and what is not there by `windowByte_of_noOwn`,
`windowByte_of_cleared`, `windowByte_of_noRequest` and `unassigned_free`. -/
theorem windowPresentsTheStateByAddress : Obligations.WindowPresentsTheStateByAddress := by
  intro s bit one two
  obtain ⟨identity, station, command, store, result, ask, own, row, channel⟩ := groups_shown s
  refine ⟨?identity, ?station, ?command, ?store, ?result, windowByte_of_noOwn, fun o present => ?own,
    ⟨windowByte_of_cleared, ?row⟩, ?channel, fun a free => windowByte_of_unassigned (unassigned_free a free) s⟩
  case identity =>
    simp only [identityFields, List.forall_mem_cons, WindowField.Shown, bitAt_eq, byte_ofToNat, byte_nibbles, pow_zero,
      one_mul] at identity
    simp only [stationFields, List.forall_mem_cons, WindowField.Shown] at station
    obtain ⟨kind, numbers, resetCause, cause, state, marks, -⟩ := identity
    obtain ⟨listen, join, isolation, queue, -⟩ := station
    exact ⟨kind, numbers, toNat_of_one resetCause, toNat_of_one cause, toNat_of_one state, toNat_of_one marks,
      toNat_of_one listen, toNat_of_one join, toNat_of_one isolation, toNat_of_one queue⟩
  case station =>
    simp only [stationFields, List.forall_mem_cons, WindowField.Shown, byte_ofToNat] at station
    obtain ⟨-, -, -, -, committed, applied, reason, sequence, discards, -⟩ := station
    exact ⟨word_of_two committed, word_of_two applied, toNat_of_one reason, sequence, word_of_two discards⟩
  case command =>
    simp only [commandFields, List.forall_mem_cons, WindowField.Shown, byte_ofToNat, flagWord_toNat] at command
    obtain ⟨flags, enables, events, select, target, priority, tag, cmd, result, -⟩ := command
    exact ⟨flags, enables, events, flags.trans (toNat_eq_bits _), select, target, priority, tag, cmd,
      toNat_of_one result⟩
  case store =>
    simp only [storeFields, List.forall_mem_cons, WindowField.Shown, bitAt_eq, byte_ofToNat, pow_zero, one_mul] at store
    obtain ⟨status, written, key, address, data, rowSelect, channelSelect, -⟩ := store
    exact ⟨toNat_of_one status, written, key, address, data, toNat_of_one rowSelect, toNat_of_one channelSelect⟩
  case result =>
    simp only [resultFields, List.forall_mem_cons, WindowField.Shown, bitAt_eq, pow_zero, one_mul] at result
    simp only [askFields, List.forall_mem_cons, WindowField.Shown, bitAt_eq] at ask
    obtain ⟨total, floors, excess, capacity, headroom, share, shed, grant, marks, carried, compare, -⟩ := result
    obtain ⟨state, tag, amount, -⟩ := ask
    refine ⟨word_of_two total, word_of_two floors, word_of_two excess, word_of_two capacity, word_of_two headroom,
      word_of_two share, word_of_two shed, word_of_two grant, toNat_of_one marks, carried, compare, toNat_of_one state,
      ?owner, word_of_two amount⟩
    cases owner : s.share.ask.owner with
    | none | some =>
      rw [owner] at tag
      exact toNat_of_one tag
  case own =>
    simp only [ownFields, present, List.forall_mem_cons, WindowField.Shown, bitAt_eq, byte_ofToNat] at own
    obtain ⟨marks, priority, held, floor, heard, digest, sequence, tag, amount, -⟩ := own
    refine ⟨toNat_of_one marks, ?_, word_of_two held, word_of_two floor, heard, digest, sequence,
      fun absent => ?_, fun k asks => ?_⟩
    · exact (lowNibble_of_one priority).trans (BitVec.ofNat_toNat 4 _)
    · rw [absent] at amount
      exact amount
    · rw [asks] at priority tag amount
      exact ⟨toNat_of_one priority, toNat_of_one tag, word_of_two amount⟩
  case row =>
    simp only [rowFields, List.forall_mem_cons, WindowField.Shown, bitAt_eq, byte_ofToNat] at row
    obtain ⟨marks, priority, sequence, lost, missed, silent, held, floor, heard, digest, amount, -⟩ := row
    refine ⟨toNat_of_one marks, ?_, sequence, toNat_of_one lost, fun fits => ?_, toNat_of_one silent, word_of_two held,
      word_of_two floor, heard, digest, fun absent => ?_, fun k asks => ⟨?_, fun used => ?_⟩⟩
    · exact (lowNibble_of_one priority).trans (BitVec.ofNat_toNat 4 _)
    · exact (congrArg BitVec.toNat (lowNibble_of_one missed)).trans (Nat.mod_eq_of_lt fits)
    · rw [absent] at amount
      exact amount
    · rw [asks] at amount
      exact word_of_two amount
    · rw [if_neg used, asks] at priority missed
      exact ⟨toNat_of_one priority, toNat_of_one missed⟩
  case channel =>
    obtain ⟨channel, request⟩ := List.forall_mem_append.mp channel
    simp only [List.forall_mem_cons, WindowField.Shown, bitAt_eq, byte_ofToNat, pow_zero, one_mul] at channel
    obtain ⟨marks, code, tag, committed, applied, gate, reference, raw, measured, count, -⟩ := channel
    refine ⟨toNat_of_one marks, toNat_of_one code, tag, word_of_two committed, word_of_two applied, word_of_two gate,
      word_of_two reference, word_of_two raw, word_of_two measured, toNat_of_one count, windowByte_of_noRequest,
      fun before r after queue here first => ?_⟩
    have found : requestFor s.port.channelSelect s.demand.requests = some r := queue ▸ requestFor_of_first here first
    have place : placeInQueue s.port.channelSelect s.demand.requests = before.length :=
      queue ▸ placeInQueue_of_first here first
    simp only [requestFields, found, place, List.forall_mem_cons, WindowField.Shown, byte_ofToNat] at request
    obtain ⟨shape, target, tag, age, -⟩ := request
    exact ⟨toNat_of_one shape, word_of_two target, tag, toNat_of_one age⟩

end
end

section
/-! PROOFS. The bytes of a frame and of a digest entry as numbers, a frame read back from its bytes, and the CRC-16 bit by
bit (R162 to R164, R4, Tables 11-1 to 11-3). -/

namespace Sys2Proof.Machine

/-! ### One-byte and two-byte fields as numbers -/

theorem toNat_byte {n : Nat} (fits : n < 256) : (byte n).toNat = n := by
  rw [byte, BitVec.toNat_ofNat, Nat.mod_eq_of_lt fits]

theorem toNat_half {n : Nat} (fits : n < 65536) : (half n).toNat = n := by
  rw [half, BitVec.toNat_ofNat, Nat.mod_eq_of_lt fits]

theorem toNat_lowByte (h : Half) : (lowByte h).toNat = h.toNat % 256 := by
  have := lowByte_add_highByte h
  have := (lowByte h).isLt
  omega

theorem toNat_highByte (h : Half) : (highByte h).toNat = h.toNat / 256 := by
  have := lowByte_add_highByte h
  have := (lowByte h).isLt
  omega

/-- A two-byte field in two bytes, low byte first. -/
theorem map_toNat_lowFirst (h : Half) : (lowFirst h).map BitVec.toNat = [h.toNat % 256, h.toNat / 256] := by
  rw [lowFirst, List.map_cons, List.map_cons, toNat_lowByte, toNat_highByte, List.map_nil]

theorem map_toNat_lowFirst_half {n : Nat} (fits : n < 65536) :
    (lowFirst (half n)).map BitVec.toNat = [n % 256, n / 256] := by
  rw [map_toNat_lowFirst, toNat_half fits]

/-- The two bytes of a two-byte value, read back. -/
theorem halfOf_lowByte_highByte (h : Half) : halfOf (lowByte h) (highByte h) = h := by
  apply BitVec.eq_of_toNat_eq
  rw [halfOf_toNat, ← lowByte_add_highByte h]
  omega

theorem toNat_halfOf_half {n : Nat} (fits : n < 65536) :
    (halfOf (lowByte (half n)) (highByte (half n))).toNat = n := by
  rw [halfOf_lowByte_highByte, toNat_half fits]

/-- The high byte of a twelve-bit number has its upper four bits clear (R4, condition 6). -/
theorem extractLsb'_highByte_half {n : Nat} (fits : n ≤ 4095) : (highByte (half n)).extractLsb' 4 4 = 0#4 := by
  apply BitVec.eq_of_toNat_eq
  rw [BitVec.extractLsb'_toNat, toNat_highByte, toNat_half (by omega), Nat.shiftRight_eq_div_pow]
  simp
  omega

/-! ### Fields of a few bits, as built (Tables 11-1, 11-2) -/

/-- Byte 1 of a frame gives its kind and its source. -/
theorem kindAndSource_byte : ∀ source : Station,
    ((byte (16 + source.toNat)).extractLsb' 4 4 = 1#4 ∧ (byte (16 + source.toNat)).extractLsb' 0 4 = source)
      ∧ ((byte (32 + source.toNat)).extractLsb' 4 4 = 2#4 ∧ (byte (32 + source.toNat)).extractLsb' 0 4 = source) := by
  decide +kernel

/-- Five marks in bits 7 to 3 and a priority in bits 2 to 0, read back. -/
theorem marks_byte : ∀ (m7 m6 m5 m4 m3 : Bool) (p : Priority),
    let b := byte (bitAt 7 m7 + bitAt 6 m6 + bitAt 5 m5 + bitAt 4 m4 + bitAt 3 m3 + p.toNat)
    b.getLsbD 7 = m7 ∧ b.getLsbD 6 = m6 ∧ b.getLsbD 5 = m5 ∧ b.getLsbD 4 = m4 ∧ b.getLsbD 3 = m3
      ∧ b.extractLsb' 0 3 = p := by decide +kernel

/-- Byte 3 of a CLAIM gives its marks and its priority. -/
theorem claimFlags_fields (c : ClaimBody) :
    (claimFlags c).getLsbD 7 = c.ask.isSome ∧ (claimFlags c).getLsbD 6 = c.joining
      ∧ (claimFlags c).getLsbD 5 = c.isolated ∧ (claimFlags c).getLsbD 4 = c.hold
      ∧ (claimFlags c).getLsbD 3 = c.shortfall ∧ (claimFlags c).extractLsb' 0 3 = c.priority :=
  marks_byte c.ask.isSome c.joining c.isolated c.hold c.shortfall c.priority

theorem toNat_claimFlags (c : ClaimBody) :
    (claimFlags c).toNat = 128 * (if c.ask.isSome then 1 else 0) + 64 * (if c.joining then 1 else 0)
      + 32 * (if c.isolated then 1 else 0) + 16 * (if c.hold then 1 else 0) + 8 * (if c.shortfall then 1 else 0)
      + c.priority.toNat := by
  have bitLe : ∀ m : Bool, (if m then 1 else 0) ≤ 1 := by decide
  have a := bitLe c.ask.isSome
  have j := bitLe c.joining
  have i := bitLe c.isolated
  have h := bitLe c.hold
  have s := bitLe c.shortfall
  have p := c.priority.isLt
  simp only [claimFlags, bitAt_eq]
  exact toNat_byte (by omega)

/-- The last byte of an ask gives its priority and its tag, and its top bit is clear. -/
theorem askFields_byte : ∀ (p : Priority) (tag : BitVec 4),
    (byte (p.toNat * 16 + tag.toNat)).extractLsb' 4 3 = p ∧ (byte (p.toNat * 16 + tag.toNat)).extractLsb' 0 4 = tag
      ∧ (byte (p.toNat * 16 + tag.toNat)).getLsbD 7 = false := by decide +kernel

/-! ### The check value of a frame's bytes (R163) -/

theorem length_bytes (f : Frame) : f.bytes.length = f.covered.length + 3 := by simp [Frame.bytes]

/-- The bytes between the sync byte and the check value are those that the check value covers. -/
theorem covered_of_bytes (f : Frame) : (f.bytes.drop 1).take (f.bytes.length - 3) = f.covered := by
  rw [length_bytes, Nat.add_sub_cancel]
  exact List.take_left' rfl

/-- The check value of a frame as sent matches. -/
theorem checkValueMatches_bytes (f : Frame) : checkValueMatches f.bytes = true := by
  have high : f.bytes.getD (f.bytes.length - 2) 0 = highByte (crc16 f.covered) := by
    rw [length_bytes, show f.covered.length + 3 - 2 = f.covered.length + 1 by omega]
    simp [Frame.bytes]
  have low : f.bytes.getD (f.bytes.length - 1) 0 = lowByte (crc16 f.covered) := by
    rw [length_bytes, show f.covered.length + 3 - 1 = f.covered.length + 1 + 1 by omega]
    simp [Frame.bytes]
  simp only [checkValueMatches, covered_of_bytes, low, high, halfOf_lowByte_highByte, BEq.rfl]

/-! ### A frame read back from its bytes (R4) -/

/-- What a well-formed CLAIM says of its fields. -/
theorem wellFormed_claim_iff {n : Station} {q : Byte} {c : ClaimBody} : (Frame.claim n q c).wellFormed = true ↔
    c.held ≤ 4095 ∧ c.floor ≤ 4095 ∧ (c.joining && c.isolated) = false
      ∧ ∀ a, c.ask = some a → 1 ≤ a.amount ∧ a.amount ≤ 4095 := by
  simp only [Frame.wellFormed, Ask.wellFormed, Option.all_eq_true, Bool.and_eq_true, decide_eq_true_eq,
    Bool.not_eq_true', and_assoc]

/-- A frame as sent is as long as its bytes make the receiver expect (R3). -/
theorem expectedLength_bytes (f : Frame) : expectedLength f.bytes = some f.bytes.length := by
  cases f with
  | claim n q c =>
    have kind := (kindAndSource_byte n).1.1
    have asks := (claimFlags_fields c).1
    have expected : expectedLength (Frame.claim n q c).bytes = if c.ask.isSome then some 19 else some 16 := by
      rw [← asks]
      simp [expectedLength, Frame.bytes, Frame.covered, kind]
    rw [expected]
    cases ask : c.ask <;> simp [length_bytes, Frame.covered, lowFirst, askBytes, ask]
  | leave n q code =>
    have kind := (kindAndSource_byte n).2.1
    simp [expectedLength, Frame.bytes, Frame.covered, lowFirst, kind]

section Claim
variable {n : Station} {q : Byte} {c : ClaimBody}

/-- The ask block of a CLAIM stands in bytes 14 to 16. -/
theorem readAsk_heard (fits : ∀ a, c.ask = some a → a.amount ≤ 4095) :
    readAsk (Frame.claim n q c).heard.byteAt = c.ask := by
  have flag : ((Frame.claim n q c).heard.byteAt 3).getLsbD 7 = c.ask.isSome := (claimFlags_fields c).1
  unfold readAsk
  rw [flag]
  obtain ⟨held, floor, priority, joining, isolated, hold, shortfall, heard, digest, code, ask⟩ := c
  cases ask with
  | none => rfl
  | some a =>
    obtain ⟨priority, tag, -⟩ := askFields_byte a.priority a.tag
    have amount : (halfOf (lowByte (half a.amount)) (highByte (half a.amount))).toNat = a.amount :=
      toNat_halfOf_half (Nat.lt_of_le_of_lt (fits a rfl) (by decide))
    exact congrArg some (congr (congr (congrArg Ask.mk amount) priority) tag)

/-- Every field of a CLAIM stands at its place. -/
theorem readClaim_heard (valid : (Frame.claim n q c).wellFormed = true) :
    readClaim (Frame.claim n q c).heard.byteAt = c := by
  obtain ⟨heldLe, floorLe, -, askLe⟩ := wellFormed_claim_iff.mp valid
  obtain ⟨-, joining, isolated, hold, shortfall, priority⟩ := claimFlags_fields c
  calc readClaim (Frame.claim n q c).heard.byteAt
      = { held := (halfOf (lowByte (half c.held)) (highByte (half c.held))).toNat
          floor := (halfOf (lowByte (half c.floor)) (highByte (half c.floor))).toNat
          priority := (claimFlags c).extractLsb' 0 3
          joining := (claimFlags c).getLsbD 6, isolated := (claimFlags c).getLsbD 5
          hold := (claimFlags c).getLsbD 4, shortfall := (claimFlags c).getLsbD 3
          heard := halfOf (lowByte c.heard) (highByte c.heard)
          digest := halfOf (lowByte c.digest) (highByte c.digest)
          code := halfOf (lowByte c.code) (highByte c.code)
          ask := readAsk (Frame.claim n q c).heard.byteAt } := rfl
    _ = c := by
      rw [toNat_halfOf_half (by omega), toNat_halfOf_half (by omega), readAsk_heard fun a asks => (askLe a asks).2,
        joining, isolated, hold, shortfall, priority]
      simp only [halfOf_lowByte_highByte]

/-- A well-formed CLAIM passes the field checks (R4, condition 6). -/
theorem claimFieldsValid_heard (valid : (Frame.claim n q c).wellFormed = true) :
    claimFieldsValid (Frame.claim n q c).heard.byteAt = true := by
  obtain ⟨heldLe, floorLe, apart, askLe⟩ := wellFormed_claim_iff.mp valid
  obtain ⟨asks, joining, isolated, -⟩ := claimFlags_fields c
  refine (claimFieldsValid_iff _).mpr
    ⟨extractLsb'_highByte_half heldLe, extractLsb'_highByte_half floorLe, ?_, fun flag => ?_⟩
  · show ((claimFlags c).getLsbD 6 && (claimFlags c).getLsbD 5) = false
    rw [joining, isolated, apart]
  · obtain ⟨a, ask⟩ := Option.isSome_iff_exists.mp (asks.symm.trans flag)
    obtain ⟨atLeast, atMost⟩ := askLe a ask
    obtain ⟨held, floor, priority, joining, isolated, hold, shortfall, heard, digest, code, _⟩ := c
    subst ask
    refine ⟨fun zero => ?_, extractLsb'_highByte_half atMost, (askFields_byte a.priority a.tag).2.2⟩
    have amount : (halfOf (lowByte (half a.amount)) (highByte (half a.amount))).toNat = 0 := congrArg BitVec.toNat zero
    rw [toNat_halfOf_half (by omega)] at amount
    omega

end Claim

/-- A frame as sent passes the checks of R4 on the whole reception, and is judged by its kind. -/
theorem judge_heard (f : Frame) : judge f.heard =
    (if (f.heard.byteAt 1).extractLsb' 4 4 = 1#4 then
      if claimFieldsValid f.heard.byteAt then
        some (.claim ((f.heard.byteAt 1).extractLsb' 0 4) (f.heard.byteAt 2) (readClaim f.heard.byteAt))
      else none
    else if (f.heard.byteAt 1).extractLsb' 4 4 = 2#4 then
      some (.leave ((f.heard.byteAt 1).extractLsb' 0 4) (f.heard.byteAt 2)
        (halfOf (f.heard.byteAt 3) (f.heard.byteAt 4)))
    else none) :=
  if_pos ⟨rfl, rfl, rfl, expectedLength_bytes f, checkValueMatches_bytes f⟩

/-- A well-formed frame is read back whole from its bytes. -/
theorem judge_heard_of_wellFormed {f : Frame} (valid : f.wellFormed = true) : judge f.heard = some f := by
  rw [judge_heard]
  cases f with
  | claim n q c =>
    obtain ⟨⟨kind, source⟩, -⟩ := kindAndSource_byte n
    have first : (Frame.claim n q c).heard.byteAt 1 = byte (16 + n.toNat) := rfl
    rw [first, if_pos kind, if_pos (claimFieldsValid_heard valid), source, readClaim_heard valid]
    rfl
  | leave n q code =>
    obtain ⟨-, kind, source⟩ := kindAndSource_byte n
    have first : (Frame.leave n q code).heard.byteAt 1 = byte (32 + n.toNat) := rfl
    have carried : halfOf ((Frame.leave n q code).heard.byteAt 3) ((Frame.leave n q code).heard.byteAt 4) = code :=
      halfOf_lowByte_highByte code
    rw [first, kind, if_neg (by decide), if_pos rfl, source, carried]
    rfl

/-! ### The bytes of a frame as numbers (Tables 11-1, 11-2) -/

/-- A frame as sent is the sync byte, what the check value covers, and the check value, high byte first. -/
theorem map_toNat_bytes (f : Frame) : f.bytes.map BitVec.toNat = 0xB6 :: f.covered.map BitVec.toNat
    ++ [(crc16 f.covered).toNat / 256, (crc16 f.covered).toNat % 256] := by
  simp only [Frame.bytes, List.map_cons, List.map_append, List.map_nil, toNat_highByte, toNat_lowByte]
  rfl

/-- The ask block of a CLAIM (Table 11-1). -/
theorem map_toNat_askBytes {a : Ask} (fits : a.amount ≤ 4095) : (askBytes (some a)).map BitVec.toNat
    = [a.amount % 256, a.amount / 256, 16 * a.priority.toNat + a.tag.toNat] := by
  have priority := a.priority.isLt
  have tag := a.tag.isLt
  rw [askBytes, List.map_append, map_toNat_lowFirst_half (by omega), List.map_singleton, toNat_byte (by omega),
    Nat.mul_comm a.priority.toNat]
  rfl

/-- The covered bytes of a CLAIM (Table 11-1). -/
theorem map_toNat_covered_claim {n : Station} {q : Byte} {c : ClaimBody}
    (valid : (Frame.claim n q c).wellFormed = true) : (Frame.claim n q c).covered.map BitVec.toNat =
      [16 + n.toNat, q.toNat, (claimFlags c).toNat, c.held % 256, c.held / 256, c.floor % 256, c.floor / 256,
        c.heard.toNat % 256, c.heard.toNat / 256, c.digest.toNat % 256, c.digest.toNat / 256,
        c.code.toNat % 256, c.code.toNat / 256] ++ (askBytes c.ask).map BitVec.toNat := by
  obtain ⟨heldLe, floorLe, -⟩ := wellFormed_claim_iff.mp valid
  have first : 16 + n.toNat < 256 := by
    have := n.isLt
    omega
  simp only [Frame.covered, List.map_append, map_toNat_lowFirst_half (show c.held < 65536 by omega),
    map_toNat_lowFirst_half (show c.floor < 65536 by omega), map_toNat_lowFirst, List.map_cons, toNat_byte first]
  rfl

/-- The covered bytes of a LEAVE (Table 11-2). -/
theorem map_toNat_covered_leave (n : Station) (q : Byte) (code : Half) :
    (Frame.leave n q code).covered.map BitVec.toNat
      = [32 + n.toNat, q.toNat, code.toNat % 256, code.toNat / 256] := by
  have first : 32 + n.toNat < 256 := by
    have := n.isLt
    omega
  simp only [Frame.covered, List.map_append, map_toNat_lowFirst, List.map_cons, toNat_byte first]
  rfl

/-! ### One bit of the CRC-16 (R163) -/

/-- One bit shifts the register left, and subtracts the polynomial where it differs from the bit that falls out. -/
theorem crcBit_eq_ite (c : Half) (bit : Bool) :
    crcBit c bit = if c.getLsbD 15 = bit then c <<< 1 else (c <<< 1) ^^^ 0x1021 := by
  have top : c.msb = c.getLsbD 15 := BitVec.msb_eq_getLsbD_last c
  unfold crcBit
  rw [top]
  by_cases same : c.getLsbD 15 = bit
  · rw [if_pos same, same, bne_self_eq_false]
    exact BitVec.xor_zero
  · rw [if_neg same, bne_iff_ne.mpr same]
    rfl

/-! ### Digest entries (Table 11-3, R164) -/

/-- A digest entry as numbers. -/
theorem map_toNat_digestEntry (n : Station) {code held floor ask : Nat} (codeFits : code < 256)
    (heldFits : held < 65536) (floorFits : floor < 65536) (askFits : ask < 65536) :
    (digestEntry n code held floor ask).map BitVec.toNat
      = [n.toNat, code, held % 256, held / 256, floor % 256, floor / 256, ask % 256, ask / 256] := by
  have station : n.toNat < 256 := Nat.lt_trans n.isLt (by decide)
  simp only [digestEntry, List.map_append, map_toNat_lowFirst_half heldFits, map_toNat_lowFirst_half floorFits,
    map_toNat_lowFirst_half askFits, List.map_cons, List.map_nil, toNat_byte station, toNat_byte codeFits]
  rfl

/-- A row's ask enters the digest where the row is LIVE with joining, mismatch and hold clear (R56, R61). -/
theorem Row.askAmount_eligibleAsk (r : Row) :
    askAmount r.eligibleAsk
      = if r.state = .live ∧ r.joining = false ∧ r.mismatch = false ∧ r.hold = false then askAmount r.ask else 0 := by
  simp only [Row.eligibleAsk, Row.takesPart_iff, and_assoc]
  split <;> rfl

end Sys2Proof.Machine

section
open Sys2Proof Sys2Proof.Machine

/-- Settles O16: `judge_heard_of_wellFormed` reads the frame back, `map_toNat_bytes` gives the layout of Tables 11-1 and
11-2, and `crcByte_bits` the CRC-16 bit by bit. -/
theorem frameBytesAreReadBack : Obligations.FrameBytesAreReadBack := by
  refine ⟨fun f => judge_heard_of_wellFormed, fun f valid => ?_, crc16_nil, fun bytes b => ?_⟩
  · dsimp only
    rw [covered_of_bytes, map_toNat_bytes]
    cases f with
    | claim n q c =>
      obtain ⟨-, -, -, askLe⟩ := wellFormed_claim_iff.mp valid
      rw [map_toNat_covered_claim valid, toNat_claimFlags]
      dsimp only
      cases ask : c.ask with
      | none => rfl
      | some a =>
        rw [map_toNat_askBytes (askLe a ask).2]
        rfl
    | leave n q code =>
      rw [map_toNat_covered_leave]
      rfl
  · simp only [crc16_snoc, crcByte_bits, crcBit_eq_ite]

/-- Settles O25: `map_toNat_digestEntry` gives the entry's bytes, and `Row.askAmount_eligibleAsk` the ask of a row. -/
theorem digestRunsOverEightByteEntries : Obligations.DigestRunsOverEightByteEntries := by
  refine ⟨fun n code held floor ask => map_toNat_digestEntry n, fun station v => ⟨rfl, fun n => ⟨?_, ?_⟩⟩, by decide⟩
  · rw [rowDigest, Row.askAmount_eligibleAsk]
    dsimp only
    cases ask : (Sixteen.get v.rows n).ask with
    | none => cases state : (Sixteen.get v.rows n).state <;> rfl
    | some a => cases state : (Sixteen.get v.rows n).state <;> rfl
  · cases own : v.own with
    | none => rfl
    | some o =>
      dsimp only [ownDigest]
      cases ask : o.body.ask <;> rfl

end
end

section
/-! PROOFS. A command whose subject is absent changes nothing: one lemma for each operation, by its gate (log 1, log 4,
log 12). -/

namespace Sys2Proof.Machine

/-! ### Changes that find nothing to change -/

theorem onLine_of_fixed {f : LineInterface → LineInterface} {s : State} (fixed : f s.line = s.line) :
    onLine f s = s := by
  rw [onLine, fixed]

theorem onChannel_of_fixed {c : Chan} {f : Channel → Channel} {s : State}
    (fixed : f (s.outputs.channels.get c) = s.outputs.channels.get c) : onChannel c f s = s := by
  rw [onChannel, fixed, Four.set_get]

/-! ### Resets and start-up (R139) -/

theorem endReset_of_not_held (straps : Station) {s : State} (out : s.phase.held = false) : endReset straps s = s := by
  unfold endReset
  cases phase : s.phase with
  | inReset causes => simp [phase, Phase.held] at out
  | startUp | running => rfl

theorem endStartUp_of_not_startUp {s : State} (other : s.phase ≠ .startUp) : endStartUp s = s := by
  unfold endStartUp
  cases phase : s.phase with
  | startUp => exact absurd phase other
  | inReset | running => rfl

/-! ### The line (R1 to R4, R9) -/

theorem LineInterface.startBit_of_closed (dominant : Bool) {l : LineInterface}
    (closed : l.receiver ≠ .ready ∨ l.slot ≠ none) : l.startBit dominant = l :=
  if_neg fun ⟨ready, free, _⟩ => closed.elim (· ready) (· free)

theorem LineInterface.endSlot_of_none (value : Byte) (stop stays : Bool) {l : LineInterface} (slot : l.slot = none) :
    l.endSlot value stop stays = l := by
  unfold LineInterface.endSlot
  rw [slot]

theorem endReception_of_none {s : State} (absent : s.line.reception = none ∨ s.line.slot ≠ none) :
    endReception s = s := by
  unfold endReception
  split
  · next r received free =>
    rcases absent with none | slot
    · rw [none] at received
      cases received
    · exact absurd free slot
  · rfl

theorem expireLineWatch_of_inactive {s : State} (inactive : s.line.active = false) : expireLineWatch s = s :=
  if_neg (by rw [inactive]; decide)

/-! ### The round close and what it brings to its limit (R7, R32, R33, R83, R86, R88, R108) -/

theorem closeRound_of_busy (order : CloseOrder) {s : State} (busy : s.line.idle = false) : closeRound order s = s :=
  if_neg (by rw [busy]; decide)

theorem closeStandsNext_of_apart {s : State} (apart : s.line.idle = false
    ∨ ∀ order rest, s.pending.dropWhile isAgingRow ≠ .roundClose order :: rest) : closeStandsNext s = false := by
  unfold closeStandsNext
  rcases apart with busy | behind
  · rw [busy, Bool.false_and]
  · split
    · next order rest next => exact absurd next (behind order rest)
    · exact Bool.and_false _

theorem takeLeaseExpiry_of_apart (n : Station) {s : State} (apart : closeStandsNext s = false) :
    takeLeaseExpiry n s = s :=
  if_neg fun ⟨next, _⟩ => by rw [apart] at next; cases next

theorem takeRetireExpiry_of_apart (n : Station) {s : State} (apart : closeStandsNext s = false) :
    takeRetireExpiry n s = s :=
  if_neg fun ⟨next, _⟩ => by rw [apart] at next; cases next

theorem takeLeaseExpiry_of_row {n : Station} {s : State} (row : (Sixteen.get s.peers n).state ≠ .live
    ∨ (Sixteen.get s.peers n).received = true ∨ (Sixteen.get s.peers n).agedAhead = true
    ∨ (Sixteen.get s.peers n).missed + 1 < s.config.lease) : takeLeaseExpiry n s = s := by
  refine if_neg fun ⟨_, live, unheard, first, reached⟩ => ?_
  rcases row with state | heard | ahead | below
  · exact state live
  · exact Bool.eq_false_iff.mp unheard heard
  · exact Bool.eq_false_iff.mp first ahead
  · omega

theorem takeRetireExpiry_of_row {n : Station} {s : State} (row : (Sixteen.get s.peers n).state ≠ .silent
    ∨ (Sixteen.get s.peers n).agedAhead = true ∨ (Sixteen.get s.peers n).silentRounds + 1 < s.config.retire) :
    takeRetireExpiry n s = s := by
  refine if_neg fun ⟨_, silent, first, reached⟩ => ?_
  rcases row with state | ahead | below
  · exact state silent
  · exact Bool.eq_false_iff.mp first ahead
  · omega

theorem takeListenExpiry_waits {s : State} (waits : s.member.state ≠ .listen ∨ s.member.listenCount ≤ s.config.lease) :
    takeListenExpiry s = s :=
  if_neg fun ⟨state, reached⟩ => waits.elim (· state) (Nat.not_le.mpr reached)

theorem takeJoinExpiry_waits {s : State} (waits : s.member.state ≠ .joining ∨ s.member.joinCount < 2) :
    takeJoinExpiry s = s :=
  if_neg fun ⟨state, reached⟩ => waits.elim (· state) (Nat.not_lt.mpr reached)

theorem takeIsolationExpiry_waits {s : State}
    (waits : s.member.state ≠ .member ∨ s.member.isolationCount < s.config.isolation) : takeIsolationExpiry s = s :=
  if_neg fun ⟨state, reached⟩ => waits.elim (· state) (Nat.not_lt.mpr reached)

theorem expireHead_waits {s : State} (waits : s.demand.requests = [] ∨ s.config.askLimit = 0
    ∨ ∃ r rest, s.demand.requests = r :: rest ∧ r.age < s.config.askLimit) : expireHead s = s := by
  refine expireHead_of_head fun q head => ?_
  rcases waits with none | unlimited | ⟨r, rest, queue, below⟩
  · rw [none] at head
    cases head
  · exact .inl unlimited
  · rw [queue] at head
    cases head
    exact .inr below

theorem completeShare_of_none {s : State} (flight : s.share.flight = none) : completeShare s = s := by
  unfold completeShare
  rw [flight]

/-! ### Attempts (R11 to R16) -/

theorem expireDeferral_of_busy {s : State} (busy : s.line.idle = false) : expireDeferral s = s :=
  if_neg fun ⟨idle, _⟩ => Bool.eq_false_iff.mp busy idle

theorem expireDeferral_of_expired {s : State} (expired : s.line.deferralExpired = true) : expireDeferral s = s :=
  if_neg fun ⟨_, first⟩ => Bool.eq_false_iff.mp first expired

theorem collide_of_still {s : State} (still : s.line.transmitter = .idle ∨ s.line.transmitter = .silent) :
    collide s = s := by
  refine if_neg fun sends => ?_
  obtain ⟨f, sending⟩ := s.line.sends_iff.mp sends
  rw [sending] at still
  rcases still with idle | silent
  · cases idle
  · cases silent

theorem completeTransmit_of_still {s : State} (still : s.line.transmitter = .idle ∨ s.line.transmitter = .silent) :
    completeTransmit s = s := by
  unfold completeTransmit
  rcases still with idle | silent
  · rw [idle]
  · rw [silent]

/-! ### Periods, conversions and trips (R117, R118, R131, R134) -/

theorem takeTripRequest_of_stopped (c : Chan) {s : State} (stopped : s.outputs.running = false) :
    takeTripRequest c s = s :=
  if_neg fun stands => Bool.eq_false_iff.mp stopped ((tripStands_iff c s).mp stands).1

theorem takeTripRequest_of_channel {c : Chan} {s : State} (quiet : (s.outputs.channels.get c).tripped = true
    ∨ (s.sense.channels.get c).overdrawCount < s.config.tripCount) : takeTripRequest c s = s := by
  refine if_neg fun stands => ?_
  obtain ⟨-, normal, reached⟩ := (tripStands_iff c s).mp stands
  exact quiet.elim (Bool.eq_false_iff.mp normal) (Nat.not_lt.mpr reached)

/-- On counts 0 and 256 have no end (R118). -/
theorem Channel.endOnCount_of_endless {ch : Channel} (endless : ch.onCount = 0 ∨ 256 ≤ ch.onCount) :
    ch.endOnCount = ch :=
  if_neg (by omega)

theorem execPeriodStart_of_stopped {s : State} (stopped : s.outputs.running = false) : execPeriodStart s = .next s :=
  congrArg Host.Outcome.next (if_neg (Bool.eq_false_iff.mp stopped))

theorem execOnCountEnd_of_stopped (c : Chan) {s : State} (stopped : s.outputs.running = false) :
    execOnCountEnd c s = .next s :=
  congrArg Host.Outcome.next (if_neg (Bool.eq_false_iff.mp stopped))

theorem execOnCountEnd_of_endless {c : Chan} {s : State} (endless : (s.outputs.channels.get c).onCount = 0
    ∨ 256 ≤ (s.outputs.channels.get c).onCount) : execOnCountEnd c s = .next s := by
  rw [execOnCountEnd, onChannel_of_fixed (Channel.endOnCount_of_endless endless), ite_self]

theorem execConversionPass_of_stopped {s : State} (stopped : s.outputs.running = false) :
    execConversionPass s = .next s :=
  congrArg Host.Outcome.next (if_neg fun ⟨running, _⟩ => Bool.eq_false_iff.mp stopped running)

theorem execConversionPass_of_begun {s : State} (begun : s.sense.converter ≠ .idle ∨ s.sense.passBegun = true) :
    execConversionPass s = .next s :=
  congrArg Host.Outcome.next (if_neg fun ⟨_, idle, first⟩ => begun.elim (· idle) (Bool.eq_false_iff.mp first))

theorem execConversionComplete_of_not_converting (raw : BitVec 10) (trip : TripTaking) {s : State}
    (still : ∀ c, s.sense.converter ≠ .converting c) : execConversionComplete raw trip s = .next s := by
  unfold execConversionComplete
  cases converter : s.sense.converter with
  | converting c => exact absurd converter (still c)
  | idle | tripping => rfl

/-! ### Write operations (R147) -/

theorem finishWrite_of_none {s : State} (write : s.store.write = none) : finishWrite s = s := by
  unfold finishWrite
  rw [write]

theorem timeOutWrite_of_none {s : State} (write : s.store.write = none) : timeOutWrite s = s := by
  unfold timeOutWrite
  rw [write]

/-! ### Bytes of the local port (R151 to R154, log 12) -/

/-- A data byte is not this event unless a write transaction stands at an address that passes the test. -/
theorem takeWrite_of_elsewhere {ok : BitVec 7 → Bool} {s : State}
    (elsewhere : ∀ a, s.port.link = .writing a → ok a = false) (effect : BitVec 7 → State → State) :
    takeWrite ok effect s = s := by
  rcases takeWrite_cases ok effect s with same | ⟨a, passes, link, -⟩
  · exact same
  · exact absurd passes (Bool.eq_false_iff.mp (elsewhere a link))

/-- A data byte for one address is not this event while the link does not stand at it. -/
theorem takeWrite_of_link_ne {address : BitVec 7} {s : State} (elsewhere : s.port.link ≠ .writing address)
    (effect : BitVec 7 → State → State) : takeWrite (fun a => decide (a = address)) effect s = s :=
  takeWrite_of_elsewhere (fun a link => decide_eq_false fun (same : a = address) => elsewhere (same ▸ link)) effect

/-- A data byte for the two halves of a register is not this event while the link stands at neither. -/
theorem takeWrite_of_link_ne_halves {low high : BitVec 7} {s : State} (notLow : s.port.link ≠ .writing low)
    (notHigh : s.port.link ≠ .writing high) (effect : BitVec 7 → State → State) :
    takeWrite (fun a => decide (a = low ∨ a = high)) effect s = s :=
  takeWrite_of_elsewhere (fun a link => decide_eq_false fun (half : a = low ∨ a = high) =>
    half.elim (fun same => notLow (same ▸ link)) (fun same => notHigh (same ▸ link))) effect

theorem takeCommand_of_link_ne {s : State} (elsewhere : s.port.link ≠ .writing cmdAddress) (code : Byte)
    (decision : State → CmdResult × State) : takeCommand code decision s = s :=
  takeWrite_of_link_ne elsewhere _

theorem execRestart_of_link_ne {s : State} (elsewhere : s.port.link ≠ .writing cmdAddress) :
    execRestart s = .next s := by
  unfold execRestart
  cases restartRefusal s with
  | some code => exact congrArg Host.Outcome.next (takeCommand_of_link_ne elsewhere 8 _)
  | none => exact congrArg Host.Outcome.next (takeWrite_of_link_ne elsewhere _)

theorem execRefusedUnknown_of_link_ne (code : Byte) {s : State} (elsewhere : s.port.link ≠ .writing cmdAddress) :
    execRefusedUnknown code s = .next s := by
  rw [execRefusedUnknown, takeCommand_of_link_ne elsewhere, ite_self]

/-- The code of a command is not an unknown one (R154). -/
theorem execRefusedUnknown_of_code {code : Byte} (positive : 1 ≤ code.toNat) (known : code.toNat ≤ 8) (s : State) :
    execRefusedUnknown code s = .next s := by
  refine congrArg Host.Outcome.next (if_neg ?_)
  rintro (rfl | unknown)
  · exact absurd positive (by decide)
  · omega

/-- A byte at an address with a row of its own is that row's event, not a REGISTER_WRITE. -/
theorem execRegisterWrite_of_ownRow (value : Byte) {s : State} (own : ∀ a, s.port.link = .writing a →
    a = 0x12 ∨ a = 0x13 ∨ a = 0x14 ∨ a = 0x15 ∨ a = 0x1D ∨ a = 0x22) : execRegisterWrite value s = .next s :=
  congrArg Host.Outcome.next (takeWrite_of_elsewhere
    (fun a link => (congrArg Bool.not (decide_eq_true (own a link)) : (!hasOwnRow a) = false)) _)

theorem captureByte_of_not_reading {s : State} (other : ∀ a, s.port.link ≠ .reading a) : captureByte s = s := by
  unfold captureByte
  cases link : s.port.link with
  | reading a => exact absurd link (other a)
  | released | ignored | awaiting | writing => rfl

theorem selectLow_of_selected {s : State} (selected : s.port.link ≠ .released) : selectLow s = s := by
  unfold selectLow
  cases link : s.port.link with
  | released => exact absurd link selected
  | ignored | awaiting | reading | writing => rfl

theorem takeAddress_of_not_awaiting (value : Byte) {s : State} (other : s.port.link ≠ .awaiting) :
    takeAddress value s = s := by
  unfold takeAddress
  cases link : s.port.link with
  | awaiting => exact absurd link other
  | released | ignored | reading | writing => rfl

end Sys2Proof.Machine

section
open Sys2Proof Sys2Proof.Machine

/-- Settles O4: each gate is that of the command's own operation, whose lemma stands above. -/
theorem commandsWithoutTheirSubjectChangeNothing : Obligations.CommandsWithoutTheirSubjectChangeNothing := by
  have next : ∀ {s t : State}, t = s → (Host.Outcome.next t : Host.Outcome State Fault Refusal) = .next s :=
    fun same => congrArg Host.Outcome.next same
  intro s c absent
  rcases absent with ⟨⟨straps, rfl⟩, out⟩ | ⟨rfl, phase⟩ | ⟨rfl | rfl, receiver⟩ | ⟨⟨dominant, rfl⟩, closed⟩
    | ⟨⟨value, stop, stays, rfl⟩, slot⟩ | ⟨rfl, reception⟩ | ⟨⟨order, rfl⟩ | rfl, busy⟩ | ⟨rfl, expired⟩
    | ⟨n, rfl, row⟩ | ⟨n, rfl, row⟩ | ⟨⟨n, rfl | rfl⟩, apart⟩ | ⟨rfl, waits⟩ | ⟨rfl, waits⟩ | ⟨rfl, waits⟩
    | ⟨rfl, waits⟩ | ⟨rfl, flight⟩ | ⟨rfl | rfl, still⟩ | ⟨rfl, inactive⟩ | ⟨rfl | rfl | ⟨d, rfl⟩ | ⟨d, rfl⟩, stopped⟩
    | ⟨d, rfl, quiet⟩ | ⟨d, rfl, endless⟩ | ⟨rfl, begun⟩ | ⟨⟨raw, trip, rfl⟩, still⟩ | ⟨rfl | rfl, write⟩
    | ⟨command, elsewhere⟩ | ⟨⟨value, rfl⟩, elsewhere⟩ | ⟨⟨value, rfl⟩, low, high⟩ | ⟨⟨value, rfl⟩, low, high⟩
    | ⟨code, rfl, positive, known⟩ | ⟨⟨value, rfl⟩, own⟩ | ⟨rfl, link⟩ | ⟨rfl, link⟩ | ⟨⟨value, rfl⟩, link⟩
  · exact next (endReset_of_not_held straps out)
  · exact next (endStartUp_of_not_startUp phase)
  · exact next (onLine_of_fixed (if_neg receiver))
  · exact next (onLine_of_fixed (if_neg receiver))
  · exact next (onLine_of_fixed (LineInterface.startBit_of_closed dominant closed))
  · exact next (onLine_of_fixed (LineInterface.endSlot_of_none value stop stays slot))
  · exact next (endReception_of_none reception)
  · exact next (closeRound_of_busy order busy)
  · exact next (expireDeferral_of_busy busy)
  · exact next (expireDeferral_of_expired expired)
  · exact next (takeLeaseExpiry_of_row row)
  · exact next (takeRetireExpiry_of_row row)
  · exact next (takeLeaseExpiry_of_apart n (closeStandsNext_of_apart apart))
  · exact next (takeRetireExpiry_of_apart n (closeStandsNext_of_apart apart))
  · exact next (takeListenExpiry_waits waits)
  · exact next (takeJoinExpiry_waits waits)
  · exact next (takeIsolationExpiry_waits waits)
  · exact next (expireHead_waits waits)
  · exact next (completeShare_of_none flight)
  · exact next (collide_of_still still)
  · exact next (completeTransmit_of_still still)
  · exact next (expireLineWatch_of_inactive inactive)
  · exact execPeriodStart_of_stopped stopped
  · exact execConversionPass_of_stopped stopped
  · exact execOnCountEnd_of_stopped d stopped
  · exact next (takeTripRequest_of_stopped d stopped)
  · exact next (takeTripRequest_of_channel quiet)
  · exact execOnCountEnd_of_endless endless
  · exact execConversionPass_of_begun begun
  · exact execConversionComplete_of_not_converting raw trip still
  · exact next (finishWrite_of_none write)
  · exact next (timeOutWrite_of_none write)
  · -- The nine commands of CMD.
    rcases command with rfl | rfl | rfl | rfl | rfl | rfl | rfl | rfl | ⟨code, rfl⟩
    iterate 7 exact next (takeCommand_of_link_ne elsewhere _ _)
    · exact execRestart_of_link_ne elsewhere
    · exact execRefusedUnknown_of_link_ne code elsewhere
  · exact next (takeWrite_of_link_ne elsewhere _)
  · exact next (takeWrite_of_link_ne_halves low high _)
  · exact next (takeWrite_of_link_ne_halves low high _)
  · exact execRefusedUnknown_of_code positive known s
  · exact execRegisterWrite_of_ownRow value own
  · exact next (captureByte_of_not_reading link)
  · exact next (selectLow_of_selected link)
  · exact next (takeAddress_of_not_awaiting value link)

end
end

section
/-! PROOFS. A step runs the command at the front of the queue, and no command touches the queue of commands (log 1,
log 21). -/

namespace Sys2Proof.Machine

/-! ### The step (section 0.2) -/

theorem step_cons {s : State} {c : Instr} {rest : List Instr} (queue : s.pending = c :: rest) :
    step s = exec c (s.withPending rest) := by
  unfold step
  rw [queue]

/-! ### The blocks and the queue of commands -/

@[simp] theorem beginReset_pending (cause : ResetCause) (s : State) : (beginReset cause s).pending = s.pending := by
  unfold beginReset
  cases s.phase with
  | inReset | startUp | running => rfl

theorem endReset_pending (straps : Station) (s : State) : (endReset straps s).pending = s.pending := by
  unfold endReset
  cases s.phase with
  | inReset | startUp | running => rfl

theorem endStartUp_pending (s : State) : (endStartUp s).pending = s.pending := by
  unfold endStartUp
  cases s.phase with
  | startUp =>
    dsimp only
    split
    · rfl
    · rfl
  | inReset | running => rfl

@[simp] theorem takeDuplicate_pending (s : State) : (takeDuplicate s).pending = s.pending := by
  obtain ⟨m, l, a, d, chs, f, frame⟩ := takeDuplicate_frame s
  rw [frame]

@[simp] theorem claimArrival_pending (n : Station) (q : Byte) (c : ClaimBody) (s : State) :
    (claimArrival n q c s).pending = s.pending := by
  obtain ⟨m, d, chs, f, frame⟩ := claimArrival_frame n q c s
  rw [frame]

@[simp] theorem removeRow_pending (n : Station) (s : State) : (removeRow n s).pending = s.pending := by
  obtain ⟨m, d, chs, f, frame⟩ := removeRow_frame n s
  rw [frame]

@[simp] theorem takeFrame_pending (f : Frame) (s : State) : (takeFrame f s).pending = s.pending := by
  cases f with
  | claim n q c => simp [takeFrame, apply_ite State.pending]
  | leave n q code => simp [takeFrame, apply_ite State.pending]

theorem endReception_pending (s : State) : (endReception s).pending = s.pending := by
  unfold endReception
  split
  · dsimp only
    split
    · rfl
    · simp [apply_ite State.pending]
  · rfl

theorem closeRound_pending (order : CloseOrder) (s : State) : (closeRound order s).pending = s.pending := by
  by_cases idle : s.line.idle = true
  · obtain ⟨m, a, d, chs, f, left⟩ := takeLeftExpiries_frame s
    obtain ⟨m', a', d', chs', f', counts⟩ := closeCounts_frame order (roundView s)
      (closeTable (onLine LineInterface.closeRound (takeLeftExpiries s)))
    rw [closeRound_eq order idle, counts, closeTable_eq, left]
    rfl
  · rw [closeRound_of_busy order (Bool.eq_false_iff.mpr idle)]

theorem takeLeaseExpiry_pending (n : Station) (s : State) : (takeLeaseExpiry n s).pending = s.pending := by
  rcases takeLeaseExpiry_cases n s with same | ⟨taken, -⟩
  · rw [same]
  · rw [taken]
    rfl

theorem takeRetireExpiry_pending (n : Station) (s : State) : (takeRetireExpiry n s).pending = s.pending := by
  rcases takeRetireExpiry_cases n s with same | ⟨taken, -⟩
  · rw [same]
  · rw [taken]
    rfl

theorem takeListenExpiry_pending (s : State) : (takeListenExpiry s).pending = s.pending := by
  obtain ⟨m, d, chs, f, frame⟩ := takeListenExpiry_frame s
  rw [frame]

theorem takeJoinExpiry_pending (s : State) : (takeJoinExpiry s).pending = s.pending := by
  obtain ⟨m, d, chs, f, frame⟩ := takeJoinExpiry_frame s
  rw [frame]

theorem takeIsolationExpiry_pending (s : State) : (takeIsolationExpiry s).pending = s.pending := by
  obtain ⟨m, a, d, chs, f, frame⟩ := takeIsolationExpiry_frame s
  rw [frame]

theorem expireHead_pending (s : State) : (expireHead s).pending = s.pending := by
  obtain ⟨d, f, frame⟩ := expireHead_frame s
  rw [frame]

theorem completeShare_pending (s : State) : (completeShare s).pending = s.pending := by
  cases flight : s.share.flight with
  | none => rw [completeShare_of_none flight]
  | some k =>
    obtain ⟨l, a, frame⟩ := completeShare_frame (s := s) (by rw [flight]; rfl)
    obtain ⟨n, d, chs, f, parts⟩ := completed_frame s
    rw [frame, parts]

theorem expireLineWatch_pending (s : State) : (expireLineWatch s).pending = s.pending := by
  cases active : s.line.active with
  | false => rw [expireLineWatch_of_inactive active]
  | true =>
    obtain ⟨m, a, d, chs, f, frame⟩ :=
      takeLineWatch_frame (raiseLine .stuck (onLine (fun l => { l with lineWatch := 0 }) s))
    rw [expireLineWatch, if_pos active, frame]
    rfl

theorem expireDeferral_pending (s : State) : (expireDeferral s).pending = s.pending := by
  by_cases first : s.line.idle = true ∧ s.line.deferralExpired = false
  · obtain ⟨idle, unexpired⟩ := first
    obtain ⟨l, a, frame⟩ := tryAttempt_frame s.noteExpiry
    rw [expireDeferral_eq idle unexpired, frame]
    rfl
  · exact congrArg State.pending (if_neg first)

theorem collide_pending (s : State) : (collide s).pending = s.pending := by
  simp [collide, apply_ite State.pending]

theorem completeTransmit_pending (s : State) : (completeTransmit s).pending = s.pending := by
  unfold completeTransmit
  cases s.line.transmitter with
  | sending frame =>
    cases frame with
    | claim n q body =>
      obtain ⟨d, chs, f, recheck⟩ := headRecheck_frame (onChannels (Four.map Channel.release)
        (setOwn (some { body := body, sequence := q, completed := true }) (onLine LineInterface.complete s)))
      dsimp only
      rw [recheck]
      rfl
    | leave n q code =>
      dsimp only
      split
      · rfl
      · rfl
  | silent | idle => rfl

@[simp] theorem takeTripRequest_pending (c : Chan) (s : State) : (takeTripRequest c s).pending = s.pending := by
  obtain ⟨v, d, chs, f, frame⟩ := takeTripRequest_frame c s
  rw [frame]
  rfl

@[simp] theorem takeTripRequests_pending (s : State) : (takeTripRequests s).pending = s.pending := by
  simp [takeTripRequests]

@[simp] theorem handTripRequest_pending (c : Chan) (trip : TripTaking) (s : State) :
    (handTripRequest c trip s).pending = s.pending := by
  simp [handTripRequest, apply_ite State.pending]

/-! ### Commands (R154) -/

theorem takeWrite_pending {effect : BitVec 7 → State → State} (kept : ∀ a t, (effect a t).pending = t.pending)
    (ok : BitVec 7 → Bool) (s : State) : (takeWrite ok effect s).pending = s.pending := by
  rcases takeWrite_cases ok effect s with same | ⟨a, -, -, taken⟩
  · rw [same]
  · rw [taken, kept, onPort_pending]

theorem takeCommand_pending {decision : State → CmdResult × State} (kept : ∀ t, (decision t).2.pending = t.pending)
    (code : Byte) (s : State) : (takeCommand code decision s).pending = s.pending := by
  rcases takeCommand_cases code decision s with same | decided
  · rw [same]
  · rw [decided]
    exact kept (s.cmdTaken code)

theorem submit_pending (s : State) : (submit s).2.pending = s.pending := by
  unfold submit
  cases submitRefusal s with
  | some code => rfl
  | none =>
    obtain ⟨d, chs, f, frame⟩ := carrySubmit_frame (s.port.paramSelect.setWidth 2) s.port.paramTarget.toNat
      (s.port.paramPriority.setWidth 3) s.port.paramTag s
    dsimp only
    rw [frame]

theorem withdraw_pending (s : State) : (withdraw s).2.pending = s.pending := by
  obtain ⟨d, f, frame⟩ := endRequestFor_frame (s.port.paramSelect.setWidth 2) .withdrawn s
  unfold withdraw
  dsimp only
  rw [frame]
  split_ifs
  all_goals rfl

theorem clearTrip_pending (s : State) : (clearTrip s).2.pending = s.pending := by
  unfold clearTrip
  dsimp only
  split_ifs
  all_goals rfl

theorem forget_pending (s : State) : (forget s).2.pending = s.pending := by
  simp [forget, apply_ite Prod.snd, apply_ite State.pending]

theorem park_pending (s : State) : (park s).2.pending = s.pending := by
  obtain ⟨m, a, requests, results, chs, f, frame⟩ := park_frame s
  rw [frame]

theorem rejoin_pending (s : State) : (rejoin s).2.pending = s.pending := by
  by_cases parked : s.member.state = .parked
  · rw [rejoin_of_parked parked]
    rfl
  · rw [rejoin_of_not_parked parked]

/-! ### Every command -/

theorem exec_pending (c : Instr) (s : State) : ∃ t, exec c s = .next t ∧ t.pending = s.pending := by
  by_cases row : isPortOrStoreRow c = true
  · obtain ⟨t, next, x, p, n, rfl, -⟩ := exec_moves row s
    exact ⟨_, next, rfl⟩
  cases c with
  | powerOn => exact ⟨_, rfl, beginReset_pending .power s⟩
  | resetPinAsserted => exact ⟨_, rfl, beginReset_pending .pin s⟩
  | supplyReset => exact ⟨_, rfl, beginReset_pending .supply s⟩
  | resetEnd straps => exact ⟨_, rfl, endReset_pending straps s⟩
  | startUpEnd => exact ⟨_, rfl, endStartUp_pending s⟩
  | receiverReady | synchronisingTransition | startBitConfirmed | characterSlotEnd =>
    exact ⟨_, rfl, onLine_pending _ s⟩
  | receptionEnd => exact ⟨_, rfl, endReception_pending s⟩
  | roundClose order => exact ⟨_, rfl, closeRound_pending order s⟩
  | leaseExpiry n => exact ⟨_, rfl, takeLeaseExpiry_pending n s⟩
  | retireExpiry n => exact ⟨_, rfl, takeRetireExpiry_pending n s⟩
  | listenCountExpiry => exact ⟨_, rfl, takeListenExpiry_pending s⟩
  | joinCountExpiry => exact ⟨_, rfl, takeJoinExpiry_pending s⟩
  | isolationCountExpiry => exact ⟨_, rfl, takeIsolationExpiry_pending s⟩
  | askLimitExpiry => exact ⟨_, rfl, expireHead_pending s⟩
  | shareComputationCompletion => exact ⟨_, rfl, completeShare_pending s⟩
  | deferralExpiry => exact ⟨_, rfl, expireDeferral_pending s⟩
  | collision => exact ⟨_, rfl, collide_pending s⟩
  | transmitComplete => exact ⟨_, rfl, completeTransmit_pending s⟩
  | lineWatchExpiry => exact ⟨_, rfl, expireLineWatch_pending s⟩
  | periodStart =>
    refine ⟨_, rfl, ?_⟩
    split
    · exact takeTripRequests_pending s
    · rfl
  | onCountEnd d =>
    refine ⟨_, rfl, ?_⟩
    split
    · exact onChannel_pending d _ s
    · rfl
  | conversionPass =>
    refine ⟨_, rfl, ?_⟩
    split
    · exact takeTripRequests_pending s
    · rfl
  | conversionComplete raw trip =>
    cases converter : s.sense.converter with
    | converting d =>
      exact ⟨_, exec_conversionComplete_of_converting converter raw trip,
        (handTripRequest_pending d trip _).trans (converted_pending s d raw)⟩
    | idle | tripping =>
      exact ⟨s, execConversionComplete_of_not_converting raw trip (by simp [converter]), rfl⟩
  | tripRequest d => exact ⟨_, rfl, takeTripRequest_pending d s⟩
  | submit => exact ⟨_, rfl, takeCommand_pending submit_pending 1 s⟩
  | withdraw => exact ⟨_, rfl, takeCommand_pending withdraw_pending 2 s⟩
  | clear => exact ⟨_, rfl, takeCommand_pending clearTrip_pending 3 s⟩
  | forget => exact ⟨_, rfl, takeCommand_pending forget_pending 4 s⟩
  | park => exact ⟨_, rfl, takeCommand_pending park_pending 5 s⟩
  | rejoin => exact ⟨_, rfl, takeCommand_pending rejoin_pending 6 s⟩
  | restart =>
    refine ⟨_, rfl, ?_⟩
    split
    · exact takeCommand_pending (fun _ => rfl) 8 s
    · exact takeWrite_pending (fun _ => beginReset_pending .restart) _ s
  | storeWrite | refusedUnknown | writeOperationDone | writeTimeout | supplyLow | storeKey | rawEvents | en
  | registerWrite | readLatch | transactionStart | addressByte | transactionEnd => exact absurd rfl row

end Sys2Proof.Machine

section
open Sys2Proof Sys2Proof.Machine

/-- Settles O1: the step of a queue that is not empty. -/
theorem stepRunsTheFrontCommand : Obligations.StepRunsTheFrontCommand :=
  fun _ _ _ => step_cons

/-- Settles O3: each command's own operation leaves the queue of commands. -/
theorem noCommandStopsTheMachine : Obligations.NoCommandStopsTheMachine := exec_pending

end
end
